-- ==== Sys2Proof/Word.lean ====
section
/-! DEFINITION. The plain data GCFD works on: bytes, port indices, sub-frames and frames (00_scope R10, R11; 20_memory R31). -/

namespace Sys2Proof

/-- A byte: eight bits, bit 0 the least significant (R10, R11). -/
abbrev Byte := BitVec 8

/-- A port index 0..3: the two bits of a command's `port` field and of `pidx` (R24, R56). -/
abbrev PortIdx := BitVec 2

/-- The 8 bytes of one sub-frame, index 0 first (format `SUB`, R48). -/
abbrev SubFrame := Vector Byte 8

/-- The 37 bytes of one input report, index 0 first (format `FRAME`, R47). -/
abbrev Frame := Vector Byte 37

end Sys2Proof
end

