-- ==== Sys2Proof/Config.lean ====
section
/-! DEFINITION. The implementation parameters of 00_scope R5 to R9, each literal under its own name (92 D30), and the one
free value of the model: the interleaving of the two agents. -/

namespace Sys2Proof.Config

/-- `NPORTS` (R5). -/
abbrev nports : Nat := 4
/-- `FRAME_LEN`: a frame is exactly this many bytes (R5, R37). -/
abbrev frameLen : Nat := 37
/-- `SUB_LEN` (R5). -/
abbrev subLen : Nat := 8
/-- `HDR_LEN`: the adapter header at the start of a frame (R5, R32). -/
abbrev hdrLen : Nat := 2
/-- `STRIDE`: the distance between the starts of two sub-frames (R5). -/
abbrev stride : Nat := 9
/-- `NAXES` (R5). -/
abbrev naxes : Nat := 4
/-- `NTRIG` (R5). -/
abbrev ntrig : Nat := 2
/-- `NBTN` (R5). -/
abbrev nbtn : Nat := 12
/-- `CENTER`: the rest position of a stick byte (R6). -/
abbrev center : Nat := 128
/-- `RESOLUTION`: the steps a stick reports in one direction (R6). -/
abbrev resolution : Nat := 80
/-- `CAL_MAX_INIT` (R7). -/
abbrev calMaxInit : Byte := 208#8
/-- `CAL_MIN_INIT` (R7). -/
abbrev calMinInit : Byte := 48#8
/-- The default of the input `TRIG_OFFSET` (R8). -/
abbrev trigOffsetDefault : Byte := 28#8
/-- The default of the input `TRIG_SPAN` (R8). -/
abbrev trigSpanDefault : Byte := 200#8
/-- `QIDX_W`: the width of a query's port index (R9, R58). -/
abbrev qidxW : Nat := 8

/-- The two readings of the stick quotient (R9, R97; 90 C1). -/
inductive Rounding where
  | floor   -- toward minus infinity
  | trunc   -- toward zero
  deriving DecidableEq, Repr

/-- `STICK_ROUND` of this hardware (R9, R97). -/
abbrev stickRound : Rounding := .floor

/-- The two agents whose steps interleave (R12, R137). -/
inductive Agent where
  /-- GCFD's own steps: the acceptance of a command, DSTEP. -/
  | decoder
  /-- The steps of the query channel. -/
  | consumer
  deriving DecidableEq, Repr, Inhabited

/-- FREE VALUE (log 2): which agent goes first where both can move and the schedule says nothing. "The interleaving of the two
agents' steps is not fixed by anything" (R137): it has no body, so nothing can be proved of its value. -/
opaque arbiter : Nat → Agent

end Sys2Proof.Config
end

