-- ==== Sys2Proof/Syntax.lean ====
section
/-! DEFINITION. The syntax of GCFD: one constructor per row of spec/opcode_table.json, with every bit its encoding carries, the
ignored ones included. A data row's port and a status row's channel are implied by position (R53) and stand as arguments. -/

namespace Sys2Proof

/-- The two channels (R1, R136; 92 D1). -/
inductive Channel where
  | command
  | query
  deriving DecidableEq, Repr

/-- The rows of spec/opcode_table.json. `u` is an ignored field `H[7:6]` (R54), `h` a whole illegal header, `q1` the index byte
of a query (R58), `q0` a whole illegal operation byte, `f` a frame, `v` the data byte of a field. -/
inductive Instr where
  -- format CMD (R54, R55, R63)
  | start (u : BitVec 2)
  | stop (u : BitVec 2)
  | frame (u : BitVec 2) (f : Frame)
  | subframe (p : PortIdx) (sf : SubFrame)
  | cmdReservedOp (h : Byte)
  | cmdReservedB3 (h : Byte)
  | cmdReservedB4 (h : Byte)
  | cmdReservedB5 (h : Byte)
  -- format QRY (R57, R63)
  | get (q1 : Byte)
  | isactive (q1 : Byte)
  | qryReservedB1 (q0 q1 : Byte)
  | qryReservedB2 (q0 q1 : Byte)
  | qryReservedB3 (q0 q1 : Byte)
  | qryReservedB4 (q0 q1 : Byte)
  | qryReservedB5 (q0 q1 : Byte)
  | qryReservedB6 (q0 q1 : Byte)
  | qryReservedB7 (q0 q1 : Byte)
  -- format FRAME (R47, R75)
  | extractP0 (f : Frame)
  | extractP1 (f : Frame)
  | extractP2 (f : Frame)
  | extractP3 (f : Frame)
  -- format SUB, byte 0 (R49)
  | btnA (p : PortIdx) (v : Byte)
  | btnB (p : PortIdx) (v : Byte)
  | btnX (p : PortIdx) (v : Byte)
  | btnY (p : PortIdx) (v : Byte)
  | btnLeft (p : PortIdx) (v : Byte)
  | btnRight (p : PortIdx) (v : Byte)
  | btnDown (p : PortIdx) (v : Byte)
  | btnUp (p : PortIdx) (v : Byte)
  -- format SUB, byte 1 (R50)
  | btnStart (p : PortIdx) (v : Byte)
  | btnZ (p : PortIdx) (v : Byte)
  | btnR (p : PortIdx) (v : Byte)
  | btnL (p : PortIdx) (v : Byte)
  | sub1Unused (p : PortIdx) (v : Byte)
  -- format SUB, bytes 2 to 7 (R51, R52)
  | stickLX (p : PortIdx) (v : Byte)
  | stickLY (p : PortIdx) (v : Byte)
  | stickRX (p : PortIdx) (v : Byte)
  | stickRY (p : PortIdx) (v : Byte)
  | trigL (p : PortIdx) (v : Byte)
  | trigR (p : PortIdx) (v : Byte)
  -- format RSP (R59, R124)
  | statusOk (ch : Channel)
  | statusNotInitialized (ch : Channel)
  | statusOutOfRange (ch : Channel)
  | statusBadCommand (ch : Channel)
  deriving DecidableEq, Repr

/-- The fields of a sub-frame, one per SUB row of the table (R48 to R52). -/
inductive Field where
  | btnA | btnB | btnX | btnY | btnLeft | btnRight | btnDown | btnUp
  | btnStart | btnZ | btnR | btnL | sub1Unused
  | stickLX | stickLY | stickRX | stickRY
  | trigL | trigR
  deriving DecidableEq, Repr

/-- Where the bytes of an instruction stand. "The port index of a decode is implied by position in the frame, not carried in the
data" (R53), and the same byte is a header on one channel and a button byte in a sub-frame. -/
inductive Place where
  /-- The command channel. -/
  | command
  /-- The query channel. -/
  | query
  /-- The block of port `p` in a frame. -/
  | frameBlock (p : PortIdx)
  /-- The byte of field `f` in a sub-frame of port `p`. -/
  | field (p : PortIdx) (f : Field)
  /-- The status byte of a response on channel `ch`. -/
  | response (ch : Channel)
  deriving DecidableEq, Repr

end Sys2Proof
end

