-- ==== Sys2Proof/WellFormed.lean ====
section
/-! DEFINITION. Which terms of Instr stand for words of their row. Only the reserved rows need a check: the whole byte is kept,
and the rows overlap, so a byte stands for the row of its lowest reserved bit (R63; log 12). -/

namespace Sys2Proof

/-- Header `h` matches CMD_RESERVED_OP: `H[2] = 1` (R63). -/
def cmdOpReserved (h : Byte) : Bool := h.getLsbD 2

/-- Bits `lo` to `n - 1` of `b` are 0. -/
def bitsClear (b : Byte) (lo n : Nat) : Bool := (List.range n).all fun i => i < lo || !b.getLsbD i

/-- The term is the reading of some word in its place. -/
def Instr.wf : Instr → Bool
  | .cmdReservedOp h => cmdOpReserved h
  | .cmdReservedB3 h => h.getLsbD 3 && bitsClear h 2 3
  | .cmdReservedB4 h => h.getLsbD 4 && bitsClear h 2 4
  | .cmdReservedB5 h => h.getLsbD 5 && bitsClear h 2 5
  | .qryReservedB1 q0 _ => q0.getLsbD 1
  | .qryReservedB2 q0 _ => q0.getLsbD 2 && bitsClear q0 1 2
  | .qryReservedB3 q0 _ => q0.getLsbD 3 && bitsClear q0 1 3
  | .qryReservedB4 q0 _ => q0.getLsbD 4 && bitsClear q0 1 4
  | .qryReservedB5 q0 _ => q0.getLsbD 5 && bitsClear q0 1 5
  | .qryReservedB6 q0 _ => q0.getLsbD 6 && bitsClear q0 1 6
  | .qryReservedB7 q0 _ => q0.getLsbD 7 && bitsClear q0 1 7
  | .start _ | .stop _ | .frame _ _ | .subframe _ _ | .get _ | .isactive _
  | .extractP0 _ | .extractP1 _ | .extractP2 _ | .extractP3 _
  | .btnA _ _ | .btnB _ _ | .btnX _ _ | .btnY _ _ | .btnLeft _ _ | .btnRight _ _ | .btnDown _ _ | .btnUp _ _
  | .btnStart _ _ | .btnZ _ _ | .btnR _ _ | .btnL _ _ | .sub1Unused _ _
  | .stickLX _ _ | .stickLY _ _ | .stickRX _ _ | .stickRY _ _ | .trigL _ _ | .trigR _ _
  | .statusOk _ | .statusNotInitialized _ | .statusOutOfRange _ | .statusBadCommand _ => true

end Sys2Proof
end

