-- ==== Sys2Proof/Decode.lean ====
section
/-! DEFINITION. The decoder: bytes in a place to an instruction and the bytes left over, total, rejecting by name; then the
encoder, written from the same tables (30_encoding R47 to R64). -/

namespace Sys2Proof

/-- Why bytes are no instruction of their place. An illegal request is NOT among them: it decodes to its reserved row (R63). -/
inductive DecodeError where
  /-- No byte stands there. -/
  | empty
  /-- A command packet of `need` bytes of which only `have_` stand there (R37, R152; log 13). -/
  | shortCommand (need have_ : Nat)
  /-- A query packet of one byte (R64: always 2). -/
  | shortQuery
  /-- Fewer than 37 bytes of a frame (R37). -/
  | shortFrame (have_ : Nat)
  /-- A status byte 04 to FF, which is never produced (R124). -/
  | badStatus (b : Byte)
  deriving DecidableEq, Repr

/-- What a decoder answers: an instruction and the bytes after it, or why there is none. -/
abbrev DecodeResult := Except DecodeError (Instr × List Byte)

/-- The first `n` bytes and the rest, where there are `n`. -/
def takeBytes (n : Nat) (l : List Byte) : Option (Vector Byte n × List Byte) :=
  if h : n ≤ l.length then some (⟨⟨l.take n⟩, by simp [h]⟩, l.drop n) else none

/-- The header selects its row: the reserved rows first (a header is legal exactly when none matches), then `op` (R55, R63). -/
def decodeCommand : List Byte → DecodeResult
  | [] => .error .empty
  | h :: rest =>
    if h.getLsbD 2 then .ok (.cmdReservedOp h, rest)
    else if h.getLsbD 3 then .ok (.cmdReservedB3 h, rest)
    else if h.getLsbD 4 then .ok (.cmdReservedB4 h, rest)
    else if h.getLsbD 5 then .ok (.cmdReservedB5 h, rest)
    else
      let hi := h.extractLsb' 6 2
      match h.getLsbD 1, h.getLsbD 0 with
      | false, false => .ok (.start hi, rest)
      | false, true => .ok (.stop hi, rest)
      | true, false =>
        match takeBytes Config.frameLen rest with
        | some (f, rest') => .ok (.frame hi f, rest')
        | none => .error (.shortCommand (1 + Config.frameLen) (1 + rest.length))
      | true, true =>
        match takeBytes Config.subLen rest with
        | some (sf, rest') => .ok (.subframe hi sf, rest')
        | none => .error (.shortCommand (1 + Config.subLen) (1 + rest.length))

/-- The query of operation byte `q0` and index byte `q1` (R57, R63). -/
def decodeQueryBytes (q0 q1 : Byte) : Instr :=
  if q0.getLsbD 1 then .qryReservedB1 q0 q1
  else if q0.getLsbD 2 then .qryReservedB2 q0 q1
  else if q0.getLsbD 3 then .qryReservedB3 q0 q1
  else if q0.getLsbD 4 then .qryReservedB4 q0 q1
  else if q0.getLsbD 5 then .qryReservedB5 q0 q1
  else if q0.getLsbD 6 then .qryReservedB6 q0 q1
  else if q0.getLsbD 7 then .qryReservedB7 q0 q1
  else if q0.getLsbD 0 then .isactive q1
  else .get q1

/-- A query packet is always 2 bytes (R57, R64). -/
def decodeQuery : List Byte → DecodeResult
  | [] => .error .empty
  | [_] => .error .shortQuery
  | q0 :: q1 :: rest => .ok (decodeQueryBytes q0 q1, rest)

/-- The extractor row of port `p` over a frame (R47, R75). -/
def extractRow (p : PortIdx) (f : Frame) : Instr :=
  if p = 0 then .extractP0 f else if p = 1 then .extractP1 f else if p = 2 then .extractP2 f else .extractP3 f

/-- 37 bytes standing as a latched frame, read for the block of port `p`. -/
def decodeFrameBlock (p : PortIdx) (l : List Byte) : DecodeResult :=
  match takeBytes Config.frameLen l with
  | some (f, rest) => .ok (extractRow p f, rest)
  | none => .error (.shortFrame l.length)

/-- The row of field `f` in a sub-frame of port `p`, over its data byte (R49 to R52). -/
def fieldRow (p : PortIdx) (v : Byte) : Field → Instr
  | .btnA => .btnA p v
  | .btnB => .btnB p v
  | .btnX => .btnX p v
  | .btnY => .btnY p v
  | .btnLeft => .btnLeft p v
  | .btnRight => .btnRight p v
  | .btnDown => .btnDown p v
  | .btnUp => .btnUp p v
  | .btnStart => .btnStart p v
  | .btnZ => .btnZ p v
  | .btnR => .btnR p v
  | .btnL => .btnL p v
  | .sub1Unused => .sub1Unused p v
  | .stickLX => .stickLX p v
  | .stickLY => .stickLY p v
  | .stickRX => .stickRX p v
  | .stickRY => .stickRY p v
  | .trigL => .trigL p v
  | .trigR => .trigR p v

/-- One byte of a sub-frame: no data value is illegal (R62). -/
def decodeField (p : PortIdx) (f : Field) : List Byte → DecodeResult
  | [] => .error .empty
  | v :: rest => .ok (fieldRow p v f, rest)

/-- One status byte; 04 to FF are never produced (R124). -/
def decodeStatus (ch : Channel) : List Byte → DecodeResult
  | [] => .error .empty
  | b :: rest =>
    if b = 0x00#8 then .ok (.statusOk ch, rest)
    else if b = 0x01#8 then .ok (.statusNotInitialized ch, rest)
    else if b = 0x02#8 then .ok (.statusOutOfRange ch, rest)
    else if b = 0x03#8 then .ok (.statusBadCommand ch, rest)
    else .error (.badStatus b)

/-- The decoder, total on any bytes in any place. -/
def decode (pl : Place) (l : List Byte) : DecodeResult :=
  match pl with
  | .command => decodeCommand l
  | .query => decodeQuery l
  | .frameBlock p => decodeFrameBlock p l
  | .field p f => decodeField p f l
  | .response ch => decodeStatus ch l

/-- A header `p p r r r o o o` with the reserved bits 0 (R54). -/
def header (hi : BitVec 2) (op : BitVec 3) : Byte := hi ++ 0#3 ++ op

/-- The bytes of an instruction (R47, R48, R54, R57, R59). -/
def encode : Instr → List Byte
  | .start u => [header u 0#3]
  | .stop u => [header u 1#3]
  | .frame u f => header u 2#3 :: f.toList
  | .subframe p sf => header p 3#3 :: sf.toList
  | .cmdReservedOp h | .cmdReservedB3 h | .cmdReservedB4 h | .cmdReservedB5 h => [h]
  | .get q1 => [0x00#8, q1]
  | .isactive q1 => [0x01#8, q1]
  | .qryReservedB1 q0 q1 | .qryReservedB2 q0 q1 | .qryReservedB3 q0 q1 | .qryReservedB4 q0 q1
  | .qryReservedB5 q0 q1 | .qryReservedB6 q0 q1 | .qryReservedB7 q0 q1 => [q0, q1]
  | .extractP0 f | .extractP1 f | .extractP2 f | .extractP3 f => f.toList
  | .btnA _ v | .btnB _ v | .btnX _ v | .btnY _ v | .btnLeft _ v | .btnRight _ v | .btnDown _ v | .btnUp _ v
  | .btnStart _ v | .btnZ _ v | .btnR _ v | .btnL _ v | .sub1Unused _ v
  | .stickLX _ v | .stickLY _ v | .stickRX _ v | .stickRY _ v | .trigL _ v | .trigR _ v => [v]
  | .statusOk _ => [0x00#8]
  | .statusNotInitialized _ => [0x01#8]
  | .statusOutOfRange _ => [0x02#8]
  | .statusBadCommand _ => [0x03#8]

/-- The place an instruction stands in. -/
def Instr.place : Instr → Place
  | .start _ | .stop _ | .frame _ _ | .subframe _ _
  | .cmdReservedOp _ | .cmdReservedB3 _ | .cmdReservedB4 _ | .cmdReservedB5 _ => .command
  | .get _ | .isactive _ | .qryReservedB1 _ _ | .qryReservedB2 _ _ | .qryReservedB3 _ _ | .qryReservedB4 _ _
  | .qryReservedB5 _ _ | .qryReservedB6 _ _ | .qryReservedB7 _ _ => .query
  | .extractP0 _ => .frameBlock 0
  | .extractP1 _ => .frameBlock 1
  | .extractP2 _ => .frameBlock 2
  | .extractP3 _ => .frameBlock 3
  | .btnA p _ => .field p .btnA
  | .btnB p _ => .field p .btnB
  | .btnX p _ => .field p .btnX
  | .btnY p _ => .field p .btnY
  | .btnLeft p _ => .field p .btnLeft
  | .btnRight p _ => .field p .btnRight
  | .btnDown p _ => .field p .btnDown
  | .btnUp p _ => .field p .btnUp
  | .btnStart p _ => .field p .btnStart
  | .btnZ p _ => .field p .btnZ
  | .btnR p _ => .field p .btnR
  | .btnL p _ => .field p .btnL
  | .sub1Unused p _ => .field p .sub1Unused
  | .stickLX p _ => .field p .stickLX
  | .stickLY p _ => .field p .stickLY
  | .stickRX p _ => .field p .stickRX
  | .stickRY p _ => .field p .stickRY
  | .trigL p _ => .field p .trigL
  | .trigR p _ => .field p .trigR
  | .statusOk ch | .statusNotInitialized ch | .statusOutOfRange ch | .statusBadCommand ch => .response ch

/-- How many bytes an instruction has: a command's length is a function of `H[2:0]` alone, a query's is always 2 (R64). -/
def Instr.packetBytes : Instr → Nat
  | .frame _ _ => 1 + Config.frameLen
  | .subframe _ _ => 1 + Config.subLen
  | .get _ | .isactive _ | .qryReservedB1 _ _ | .qryReservedB2 _ _ | .qryReservedB3 _ _ | .qryReservedB4 _ _
  | .qryReservedB5 _ _ | .qryReservedB6 _ _ | .qryReservedB7 _ _ => 2
  | .extractP0 _ | .extractP1 _ | .extractP2 _ | .extractP3 _ => Config.frameLen
  | .start _ | .stop _ | .cmdReservedOp _ | .cmdReservedB3 _ | .cmdReservedB4 _ | .cmdReservedB5 _
  | .btnA _ _ | .btnB _ _ | .btnX _ _ | .btnY _ _ | .btnLeft _ _ | .btnRight _ _ | .btnDown _ _ | .btnUp _ _
  | .btnStart _ _ | .btnZ _ _ | .btnR _ _ | .btnL _ _ | .sub1Unused _ _
  | .stickLX _ _ | .stickLY _ _ | .stickRX _ _ | .stickRY _ _ | .trigL _ _ | .trigR _ _
  | .statusOk _ | .statusNotInitialized _ | .statusOutOfRange _ | .statusBadCommand _ => 1

/-- The first `n` bytes of a word, byte `i` on bits `8i+7:8i` (R36). -/
def wordBytes (n w : Nat) : List Byte := (List.range n).map fun i => BitVec.ofNat 8 (w >>> (8 * i))

/-- The place a bare word of `nbits` is read in (log 8): 8 bits or a whole command packet (72 or 304) on the command channel,
16 on the query channel, 296 as a frame read for its first block. -/
def wordPlace (nbits : Nat) : Option Place :=
  if nbits = 8 ∨ nbits = 8 * (1 + Config.subLen) ∨ nbits = 8 * (1 + Config.frameLen) then some .command
  else if nbits = 16 then some .query
  else if nbits = 8 * Config.frameLen then some (.frameBlock 0)
  else none

/-- The instruction of a word whose bits above `nbits` are 0, up to the longest packet (38 bytes). -/
def decodeTableWord (nbits w : Nat) : Option Instr :=
  match wordPlace nbits with
  | none => none
  | some pl =>
    match decode pl (wordBytes (1 + Config.frameLen) (w % 2 ^ nbits)) with
    | .ok (i, _) => some i
    | .error _ => none

end Sys2Proof
end

