-- ==== Sys2Proof/Machine/State.lean ====
section
/-! DEFINITION. The state of GCFD (10_state R13 to R25) and the block's boundary held beside it as the model's own fields
(log 1, 2, 4, 6), the ways a step can stop, and the state after hardware reset (R28, R139). -/

namespace Sys2Proof.Machine

/-- The twelve button registers of a port slot (R15), in wire order; `true` is pressed. -/
structure Buttons where
  a : Bool
  b : Bool
  x : Bool
  y : Bool
  left : Bool
  right : Bool
  down : Bool
  up : Bool
  start : Bool
  z : Bool
  r : Bool
  l : Bool
  deriving DecidableEq, Repr

/-- The four stick registers of a port slot (R16): the step count `k` in two's complement. -/
structure Sticks where
  lx : Byte
  ly : Byte
  rx : Byte
  ry : Byte
  deriving DecidableEq, Repr

/-- The two trigger registers of a port slot (R17): the count `t`. -/
structure Triggers where
  l : Byte
  r : Byte
  deriving DecidableEq, Repr

/-- One calibration record: `observedMax`, `observedMin` (R19). -/
structure Cal where
  max : Byte
  min : Byte
  deriving DecidableEq, Repr

/-- The four calibration records of a port slot (R19). -/
structure Cals where
  lx : Cal
  ly : Cal
  rx : Cal
  ry : Cal
  deriving DecidableEq, Repr

/-- One port slot, doc00's ControllerState (R14 to R19). -/
structure Port where
  btn : Buttons
  stick : Sticks
  trig : Triggers
  /-- The last sub-frame routed to the port, all-zero ones included (R18). -/
  raw : SubFrame
  cal : Cals
  deriving DecidableEq, Repr

/-- The four statuses (R124). -/
inductive Status where
  | ok
  | notInitialized
  | outOfRange
  | badCommand
  deriving DecidableEq, Repr

/-- A response: the status, and the data bytes after it (R59). -/
structure Response where
  status : Status
  data : List Byte
  deriving DecidableEq, Repr

/-- What the outside world does in one step: let an agent go first, or assert reset (R40, R139; log 2, 5). -/
inductive Turn where
  | agent (a : Config.Agent)
  | reset
  deriving DecidableEq, Repr

/-- The machine. `alloc`, `busy`, `pidx`, `fbuf`, `ports` are the whole state of the spec (R13). The other fields are the block's
boundary, the MODEL's own: no rule of the spec makes them state (R26, R27). -/
structure State where
  /-- The port slots exist (R22). -/
  alloc : Bool
  /-- A latched frame is being decoded (R23). -/
  busy : Bool
  /-- The next port to decode (R24). -/
  pidx : PortIdx
  /-- The latched frame (R25). -/
  fbuf : Frame
  /-- The four port slots (R14). -/
  ports : Vector Port 4
  /-- The static input `TRIG_OFFSET` (R8, R26; log 6): no step writes it. -/
  trigOffset : Byte
  /-- The static input `TRIG_SPAN` (R8, R26; log 6): no step writes it. -/
  trigSpan : Byte
  /-- Command bytes presented and not yet consumed (R63, R67; log 1). -/
  cmdIn : List Byte
  /-- Query packets presented and not yet consumed, byte 0 in bits 7:0 (R57; log 1). -/
  qryIn : List (BitVec 16)
  /-- The schedule of the next steps (R40, R137; log 2). -/
  turns : List Turn
  /-- The counter the free value `Config.arbiter` is applied to where the schedule is empty (log 2). -/
  choice : Nat
  /-- The response the last step issued on the command channel; no step reads it (R27, R59; log 4). -/
  cmdRsp : Option Response
  /-- The response the last step issued on the query channel; no step reads it (R27, R59; log 4). -/
  qryRsp : Option Response
  deriving DecidableEq, Repr

/-- A fault that stops the machine. GCFD has none: it "never halts of its own accord" (R153), decoding raises nothing (R76, R132)
and every failure is a status (R124). Nothing raises one, so nothing rests on it (safe). -/
inductive Fault where
  deriving DecidableEq, Repr

/-- Where the model gives no next state. -/
inductive Refusal where
  /-- `exec` has no meaning for the instruction. No arm raises it; it would be safe. -/
  | notModelled (mnemonic : String)
  /-- `step` found no instruction where it fetches: only a command packet shorter than its operation's length, which "is outside
  the model" (93 U9; R37, R152; log 13). Raised by `step`, never by a meaning; safe: no claim about such a step can be proved. -/
  | undecodable (reason : DecodeError)
  deriving DecidableEq, Repr

/-- No button pressed. -/
def Buttons.none : Buttons :=
  { a := false, b := false, x := false, y := false, left := false, right := false, down := false, up := false,
    start := false, z := false, r := false, l := false }

/-- The calibration pair of R7, R19. -/
def Cal.init : Cal := { max := Config.calMaxInit, min := Config.calMinInit }

/-- A port slot as reset and START leave it (R28, R29). -/
def Port.init : Port :=
  { btn := Buttons.none
    stick := { lx := 0, ly := 0, rx := 0, ry := 0 }
    trig := { l := 0, r := 0 }
    raw := #v[0, 0, 0, 0, 0, 0, 0, 0]
    cal := { lx := Cal.init, ly := Cal.init, rx := Cal.init, ry := Cal.init } }

/-- Four port slots as reset and START leave them. -/
def Port.initAll : Vector Port 4 := #v[Port.init, Port.init, Port.init, Port.init]

/-- The state after hardware reset (R28, R139), the static inputs at their defaults (R8) and nothing presented (log 1, 2). -/
def State.reset : State :=
  { alloc := false
    busy := false
    pidx := 0
    fbuf := Vector.replicate 37 0
    ports := Port.initAll
    trigOffset := Config.trigOffsetDefault
    trigSpan := Config.trigSpanDefault
    cmdIn := []
    qryIn := []
    turns := []
    choice := 0
    cmdRsp := none
    qryRsp := none }

end Sys2Proof.Machine
end

