-- ==== Sys2Proof/Machine/Operands.lean ====
section
/-! DEFINITION. Operand assembly (30_encoding R53, R58; 20_memory R33), the named registers of a port slot, the primitives of
00_scope R11, and the rational values the registers stand for (R16, R17, R100). -/

namespace Sys2Proof.Machine

/-- The twelve buttons (R15). -/
inductive Button where
  | a | b | x | y | left | right | down | up | start | z | r | l
  deriving DecidableEq, Repr

/-- The four axes (R16). -/
inductive Axis where
  | lx | ly | rx | ry
  deriving DecidableEq, Repr

/-- The two triggers (R17). -/
inductive Trigger where
  | l | r
  deriving DecidableEq, Repr

/-- `port[p].btn.<name>`. -/
def Buttons.get (bs : Buttons) : Button → Bool
  | .a => bs.a
  | .b => bs.b
  | .x => bs.x
  | .y => bs.y
  | .left => bs.left
  | .right => bs.right
  | .down => bs.down
  | .up => bs.up
  | .start => bs.start
  | .z => bs.z
  | .r => bs.r
  | .l => bs.l

/-- Write one button register. -/
def Buttons.set (bs : Buttons) (n : Button) (v : Bool) : Buttons :=
  match n with
  | .a => { bs with a := v }
  | .b => { bs with b := v }
  | .x => { bs with x := v }
  | .y => { bs with y := v }
  | .left => { bs with left := v }
  | .right => { bs with right := v }
  | .down => { bs with down := v }
  | .up => { bs with up := v }
  | .start => { bs with start := v }
  | .z => { bs with z := v }
  | .r => { bs with r := v }
  | .l => { bs with l := v }

/-- `port[p].stick[a]`. -/
def Sticks.get (ss : Sticks) : Axis → Byte
  | .lx => ss.lx
  | .ly => ss.ly
  | .rx => ss.rx
  | .ry => ss.ry

/-- Write one stick register. -/
def Sticks.set (ss : Sticks) (ax : Axis) (v : Byte) : Sticks :=
  match ax with
  | .lx => { ss with lx := v }
  | .ly => { ss with ly := v }
  | .rx => { ss with rx := v }
  | .ry => { ss with ry := v }

/-- `port[p].cal[a]`. -/
def Cals.get (cs : Cals) : Axis → Cal
  | .lx => cs.lx
  | .ly => cs.ly
  | .rx => cs.rx
  | .ry => cs.ry

/-- Write one calibration record. -/
def Cals.set (cs : Cals) (ax : Axis) (v : Cal) : Cals :=
  match ax with
  | .lx => { cs with lx := v }
  | .ly => { cs with ly := v }
  | .rx => { cs with rx := v }
  | .ry => { cs with ry := v }

/-- `port[p].trig[s]`. -/
def Triggers.get (ts : Triggers) : Trigger → Byte
  | .l => ts.l
  | .r => ts.r

/-- Write one trigger register. -/
def Triggers.set (ts : Triggers) (t : Trigger) (v : Byte) : Triggers :=
  match t with
  | .l => { ts with l := v }
  | .r => { ts with r := v }

/-- `zext(b)`: the byte read as 0..255 (R11, R53). -/
def zext (b : Byte) : Int := b.toNat

/-- `sext_8(v)`: the two's-complement pattern read as -128..127 (R11, R58). -/
def sext8 (b : Byte) : Int := b.toInt

/-- `clamp(v, lo, hi)` (R11). -/
def clamp (v lo hi : Int) : Int := if v < lo then lo else if hi < v then hi else v

/-- `floor_div(n, d)`: toward minus infinity (R11). -/
def floorDiv (n d : Int) : Int := n.fdiv d

/-- `trunc_div(n, d)`: toward zero (R11). -/
def truncDiv (n d : Int) : Int := n.tdiv d

/-- Byte `j` of the block of port `p` in a frame: `FRAME[HDR_LEN + STRIDE*p + j]` (R33). -/
def frameByte (f : Frame) (p : PortIdx) (j : Fin Config.subLen) : Byte :=
  f[Config.hdrLen + Config.stride * p.toNat + j.val]'(by
    have hp := p.isLt
    have hj := j.isLt
    simp only [Config.hdrLen, Config.stride, Config.subLen] at *
    omega)

/-- `Sub(p)`, the extractor: the 8 bytes at offset `2 + 9p` (R33, R75). -/
def subOfFrame (f : Frame) (p : PortIdx) : SubFrame :=
  #v[frameByte f p 0, frameByte f p 1, frameByte f p 2, frameByte f p 3,
     frameByte f p 4, frameByte f p 5, frameByte f p 6, frameByte f p 7]

/-- The port a query names, where its index `sext_8(Q1)` is in 0..3; no other index aliases a port (R34, R58, R119). -/
def queryPort (q1 : Byte) : Option PortIdx :=
  if sext8 q1 < 0 ∨ 3 < sext8 q1 then none else some (BitVec.ofInt 2 (sext8 q1))

/-- The 16-bit query word as its two bytes, `Q0 + 256*Q1` (R36, R57). -/
def queryBytes (q : BitVec 16) : List Byte := [q.extractLsb' 0 8, q.extractLsb' 8 8]

/-- The numeric code of a status (R124). -/
def statusCode : Status → Byte
  | .ok => 0x00
  | .notInitialized => 0x01
  | .outOfRange => 0x02
  | .badCommand => 0x03

/-- The bytes of a response: the status byte, then the data (R59). -/
def responseBytes (r : Response) : List Byte := statusCode r.status :: r.data

/-- A boolean as the one bit of a byte at position `i`. -/
def bitAt (v : Bool) (i : Nat) : Byte := if v then 1#8 <<< i else 0

/-- Record byte 0: the eight buttons of sub-frame byte 0 in the same bits (R60). -/
def recButtonsLow (bs : Buttons) : Byte :=
  bitAt bs.a 0 ||| bitAt bs.b 1 ||| bitAt bs.x 2 ||| bitAt bs.y 3 |||
    bitAt bs.left 4 ||| bitAt bs.right 5 ||| bitAt bs.down 6 ||| bitAt bs.up 7

/-- Record byte 1: Start, Z, R, L in bits 0 to 3, bits 7:4 zero (R60). -/
def recButtonsHigh (bs : Buttons) : Byte := bitAt bs.start 0 ||| bitAt bs.z 1 ||| bitAt bs.r 2 ||| bitAt bs.l 3

/-- The rational the step count `k` stands for: `k / RESOLUTION` (R16, R100). -/
def stickValue (k : Byte) : Rat := (k.toInt : Rat) / (Config.resolution : Rat)

/-- The rational the trigger count `t` stands for: `t / TRIG_SPAN` (R17, R109). -/
def trigValue (span t : Byte) : Rat := (t.toNat : Rat) / (span.toNat : Rat)

end Sys2Proof.Machine
end

