-- ==== Sys2Proof/Machine/Flags.lean ====
section
/-! DEFINITION. GCFD has no condition codes; its one status-like value is `active(p)`, computed from the raw latch (10_state R21),
and the test behind it is the activity check of a sub-frame (R72). -/

namespace Sys2Proof.Machine

/-- All 8 bytes are zero: the activity check, on all 64 bits (R72). -/
def subIsZero (sf : SubFrame) : Bool := sf.toList.all (· == 0#8)

/-- `active(p)`: some byte of the last sub-frame is non-zero (R21). -/
def Port.active (po : Port) : Bool := !subIsZero po.raw

/-- The GET record of a port slot, 25 bytes (R60). -/
def recordOf (po : Port) : List Byte :=
  [recButtonsLow po.btn, recButtonsHigh po.btn, po.stick.lx, po.stick.ly, po.stick.rx, po.stick.ry, po.trig.l, po.trig.r]
    ++ po.raw.toList
    ++ [po.cal.lx.max, po.cal.lx.min, po.cal.ly.max, po.cal.ly.min, po.cal.rx.max, po.cal.rx.min, po.cal.ry.max, po.cal.ry.min]
    ++ [bitAt po.active 0]

end Sys2Proof.Machine
end

