-- ==== Sys2Proof/Machine/Ops.lean ====
section
/-! DEFINITION. The shared operations over the state: reading and writing a port slot, the field functions Btn (R79), AxisStep
(R101) and Trig (R109), DECODE (R72 to R74), the responses and `raise Status` (R128), the acceptance of a command (R67), START's
initialisation (R29, R114), the port sequencer (R69) and hardware reset (R139). -/

namespace Sys2Proof.Machine

/-- Port slot `p` (R14). -/
def State.port (s : State) (p : PortIdx) : Port := s.ports[p.toNat]'p.isLt

/-- Write port slot `p` from its old value; no other slot changes (R14, R77). -/
def State.modifyPort (s : State) (p : PortIdx) (upd : Port → Port) : State :=
  { s with ports := s.ports.set p.toNat (upd (s.port p)) p.isLt }

/-- `Btn(sf, j, mask)` on the byte `sf[j]`: non-zero under the mask (R79). -/
def btnBit (v mask : Byte) : Bool := (v &&& mask) != 0

/-- Step 2, upper bound: `max(cmax, raw)` if `raw > CENTER` (R94). -/
def axisMax (raw cmax : Byte) : Byte :=
  if Config.center < raw.toNat then (if cmax.toNat < raw.toNat then raw else cmax) else cmax

/-- Step 2, lower bound: `min(cmin, raw)` if `raw < CENTER` (R95). -/
def axisMin (raw cmin : Byte) : Byte :=
  if raw.toNat < Config.center then (if raw.toNat < cmin.toNat then raw else cmin) else cmin

/-- Step 3: the updated bound on the side of `raw`; the centre takes the upper one (R96). -/
def axisBound (raw cmax cmin : Byte) : Byte :=
  if Config.center ≤ raw.toNat then axisMax raw cmax else axisMin raw cmin

/-- `d = abs(bound - CENTER)` (R97). -/
def axisDist (bound : Byte) : Int := if zext bound < Config.center then Config.center - zext bound else zext bound - Config.center

/-- `n = (raw - CENTER) * RESOLUTION`, which does not wrap (R97). -/
def axisNumerator (raw : Byte) : Int := (zext raw - Config.center) * Config.resolution

/-- The quotient of R97 under either rounding. -/
def axisQuotient (rnd : Config.Rounding) (n d : Int) : Int :=
  match rnd with
  | .floor => floorDiv n d
  | .trunc => truncDiv n d

/-- The step count of R97 to R99: 0 where the distance is 0, else the clamped quotient. -/
def axisCount (rnd : Config.Rounding) (raw bound : Byte) : Int :=
  if axisDist bound = 0 then 0
  else clamp (axisQuotient rnd (axisNumerator raw) (axisDist bound)) (-Config.resolution) Config.resolution

/-- `AxisStep(raw, cmax, cmin)`: the step count and the calibration pair after it (R101). -/
def axisStep (rnd : Config.Rounding) (raw : Byte) (c : Cal) : Int × Cal :=
  (axisCount rnd raw (axisBound raw c.max c.min), { max := axisMax raw c.max, min := axisMin raw c.min })

/-- `Trig(raw)`: `clamp(raw - TRIG_OFFSET, 0, TRIG_SPAN)`, without wrap (R109). -/
def trigCount (offset span raw : Byte) : Int := clamp (zext raw - zext offset) 0 (zext span)

/-- Write one button register of a slot. -/
def Port.setButton (po : Port) (n : Button) (v : Bool) : Port := { po with btn := po.btn.set n v }

/-- Decode one stick byte into a slot: the stick register and the calibration record of its axis (R102 to R105). -/
def Port.stepAxis (po : Port) (ax : Axis) (raw : Byte) : Port :=
  { po with
    stick := po.stick.set ax (BitVec.ofInt 8 (axisStep Config.stickRound raw (po.cal.get ax)).1)
    cal := po.cal.set ax (axisStep Config.stickRound raw (po.cal.get ax)).2 }

/-- Decode one trigger byte into a slot (R110, R111). -/
def Port.setTrigger (po : Port) (offset span : Byte) (t : Trigger) (raw : Byte) : Port :=
  { po with trig := po.trig.set t (BitVec.ofInt 8 (trigCount offset span raw)) }

/-- The raw latch, written for every sub-frame (R73). -/
def Port.latchRaw (po : Port) (sf : SubFrame) : Port := { po with raw := sf }

/-- The twelve buttons of R74. -/
def Port.decodeButtons (po : Port) (sf : SubFrame) : Port :=
  let lo := sf[0]
  let hi := sf[1]
  ((((((((((((po.setButton .a (btnBit lo 0x01)).setButton .b (btnBit lo 0x02)).setButton .x (btnBit lo 0x04)).setButton
    .y (btnBit lo 0x08)).setButton .left (btnBit lo 0x10)).setButton .right (btnBit lo 0x20)).setButton
    .down (btnBit lo 0x40)).setButton .up (btnBit lo 0x80)).setButton .start (btnBit hi 0x01)).setButton
    .z (btnBit hi 0x02)).setButton .r (btnBit hi 0x04)).setButton .l (btnBit hi 0x08))

/-- The four axes of R74. -/
def Port.decodeSticks (po : Port) (sf : SubFrame) : Port :=
  (((po.stepAxis .lx sf[2]).stepAxis .ly sf[3]).stepAxis .rx sf[4]).stepAxis .ry sf[5]

/-- The two triggers of R74. -/
def Port.decodeTriggers (po : Port) (offset span : Byte) (sf : SubFrame) : Port :=
  (po.setTrigger offset span .l sf[6]).setTrigger offset span .r sf[7]

/-- `DecodeActive(p, sf)` on the slot: all 12 + 4 + 2 decoded fields are overwritten (R74). -/
def Port.decodeActive (po : Port) (offset span : Byte) (sf : SubFrame) : Port :=
  ((po.decodeButtons sf).decodeSticks sf).decodeTriggers offset span sf

/-- `DECODE(p, sf)` on the slot: the raw latch always, the fields only for a sub-frame that is not all zero (R72, R73). -/
def Port.decodeSub (po : Port) (offset span : Byte) (sf : SubFrame) : Port :=
  if subIsZero sf then po.latchRaw sf else (po.latchRaw sf).decodeActive offset span sf

/-- `DECODE(p, sf)` (R72). -/
def State.decodePort (s : State) (p : PortIdx) (sf : SubFrame) : State :=
  s.modifyPort p fun po => po.decodeSub s.trigOffset s.trigSpan sf

/-- Issue a response on a channel (R59): it stands on the channel's output after this step, and only then. -/
def State.respond (s : State) (ch : Channel) (st : Status) (data : List Byte) : State :=
  match ch with
  | .command => { s with cmdRsp := some { status := st, data := data } }
  | .query => { s with qryRsp := some { status := st, data := data } }

/-- `raise Status(c)`: GCFD's one exception mechanism. The operation makes none of its writes; the response carries the status
and `n` zero data bytes (R128, R134). Nothing is saved, so there is no return from it (R135). -/
def State.raiseStatus (s : State) (ch : Channel) (c : Status) (n : Nat) : State := s.respond ch c (List.replicate n 0)

/-- The acceptance of a command: "While busy = 1 a presented command is neither executed nor lost: it waits" (R67). -/
def State.accept (s : State) (op : State → State) : State := if s.busy then s else op s

/-- A command that needs the port slots: without them it raises NotInitialized (R126, R128). -/
def State.needPorts (s : State) (op : State → State) : State :=
  if s.alloc then op s else s.raiseStatus .command .notInitialized 0

/-- A query of index byte `q1` answered from the port slot it names, with `n` data bytes on failure: NotInitialized before
OutOfRange (R117, R118, R130). -/
def State.queryWith (s : State) (q1 : Byte) (n : Nat) (data : Port → List Byte) : State :=
  if s.alloc then
    match queryPort q1 with
    | some p => s.respond .query .ok (data (s.port p))
    | none => s.raiseStatus .query .outOfRange n
  else s.raiseStatus .query .notInitialized n

/-- An illegal command: BadCommand, and no state changes (R63, R129). -/
def State.badCommand (s : State) : State := s.accept fun s => s.raiseStatus .command .badCommand 0

/-- An illegal query: BadCommand at once, in every state (R63, R123, R129). It has no data bytes (log 14). -/
def State.badQuery (s : State) : State := s.raiseStatus .query .badCommand 0

/-- START's writes: every slot at its start value, `alloc` 1 (R29, R114). -/
def State.startPorts (s : State) : State := { s with ports := Port.initAll, alloc := true }

/-- FRAME's writes: latch the 37 bytes and start the sequencer (R68). -/
def State.latchFrame (s : State) (f : Frame) : State := { s with fbuf := f, pidx := 0, busy := true }

/-- The port sequencer after the decode of port `p`: the last port frees the channel and answers the FRAME (R69). -/
def State.advance (s : State) (p : PortIdx) : State :=
  if p = 3 then { s with busy := false, pidx := 0 }.respond .command .ok [] else { s with pidx := p + 1 }

/-- The outputs of the last step are gone and its turn is spent (R27; log 2, 4). -/
def State.beginStep (s : State) : State :=
  { s with turns := s.turns.tail, choice := s.choice + 1, cmdRsp := none, qryRsp := none }

/-- Hardware reset asserted for one step: the column of R28; what is presented stays presented, and the frame being decoded is
abandoned without a response (R139; log 5). -/
def State.hardReset (s : State) : State :=
  { State.reset with
    trigOffset := s.trigOffset
    trigSpan := s.trigSpan
    cmdIn := s.cmdIn
    qryIn := s.qryIn
    turns := s.turns.tail
    choice := s.choice + 1 }

end Sys2Proof.Machine
end

