-- ==== Sys2Proof/Machine/ButtonFields.lean ====
section
/-! DEFINITION. The button rows of a sub-frame (41_buttons R79 to R92): each writes one register of its port. -/

namespace Sys2Proof.Machine

/-- BTN_A (R80): mask 0x01 of sub-frame byte 0. -/
def execBtnA (p : PortIdx) (v : Byte) (s : State) : Host.Outcome State Fault Refusal :=
  .next (s.modifyPort p fun po => po.setButton .a (btnBit v 0x01))

/-- BTN_B (R81): mask 0x02 of sub-frame byte 0. -/
def execBtnB (p : PortIdx) (v : Byte) (s : State) : Host.Outcome State Fault Refusal :=
  .next (s.modifyPort p fun po => po.setButton .b (btnBit v 0x02))

/-- BTN_X (R82): mask 0x04 of sub-frame byte 0. -/
def execBtnX (p : PortIdx) (v : Byte) (s : State) : Host.Outcome State Fault Refusal :=
  .next (s.modifyPort p fun po => po.setButton .x (btnBit v 0x04))

/-- BTN_Y (R83): mask 0x08 of sub-frame byte 0. -/
def execBtnY (p : PortIdx) (v : Byte) (s : State) : Host.Outcome State Fault Refusal :=
  .next (s.modifyPort p fun po => po.setButton .y (btnBit v 0x08))

/-- BTN_LEFT (R84): mask 0x10 of sub-frame byte 0. -/
def execBtnLeft (p : PortIdx) (v : Byte) (s : State) : Host.Outcome State Fault Refusal :=
  .next (s.modifyPort p fun po => po.setButton .left (btnBit v 0x10))

/-- BTN_RIGHT (R85): mask 0x20 of sub-frame byte 0. -/
def execBtnRight (p : PortIdx) (v : Byte) (s : State) : Host.Outcome State Fault Refusal :=
  .next (s.modifyPort p fun po => po.setButton .right (btnBit v 0x20))

/-- BTN_DOWN (R86): mask 0x40 of sub-frame byte 0. -/
def execBtnDown (p : PortIdx) (v : Byte) (s : State) : Host.Outcome State Fault Refusal :=
  .next (s.modifyPort p fun po => po.setButton .down (btnBit v 0x40))

/-- BTN_UP (R87): mask 0x80 of sub-frame byte 0. -/
def execBtnUp (p : PortIdx) (v : Byte) (s : State) : Host.Outcome State Fault Refusal :=
  .next (s.modifyPort p fun po => po.setButton .up (btnBit v 0x80))

/-- BTN_START (R88): mask 0x01 of sub-frame byte 1. -/
def execBtnStart (p : PortIdx) (v : Byte) (s : State) : Host.Outcome State Fault Refusal :=
  .next (s.modifyPort p fun po => po.setButton .start (btnBit v 0x01))

/-- BTN_Z (R89): mask 0x02 of sub-frame byte 1. -/
def execBtnZ (p : PortIdx) (v : Byte) (s : State) : Host.Outcome State Fault Refusal :=
  .next (s.modifyPort p fun po => po.setButton .z (btnBit v 0x02))

/-- BTN_R (R90): mask 0x04 of sub-frame byte 1. -/
def execBtnR (p : PortIdx) (v : Byte) (s : State) : Host.Outcome State Fault Refusal :=
  .next (s.modifyPort p fun po => po.setButton .r (btnBit v 0x04))

/-- BTN_L (R91): mask 0x08 of sub-frame byte 1. -/
def execBtnL (p : PortIdx) (v : Byte) (s : State) : Host.Outcome State Fault Refusal :=
  .next (s.modifyPort p fun po => po.setButton .l (btnBit v 0x08))

/-- SUB1_UNUSED (R92): bits 7:4 of byte 1 are mapped to no button; they act only through the activity check and the raw latch (R62, R72,
R73; log 10). -/
def execSub1Unused (_p : PortIdx) (_v : Byte) (s : State) : Host.Outcome State Fault Refusal := .next s

end Sys2Proof.Machine
end

