-- ==== Sys2Proof/Machine/Extract.lean ====
section
/-! DEFINITION. The extractor rows: `Sub(i)` cut from a frame at its fixed offset (40 R75) and routed to port i, which decodes it (00 R2, 40 R72;
log 9). -/

namespace Sys2Proof.Machine

/-- EXTRACT_P0: frame bytes 2 to 9 are the sub-frame of port 0. -/
def execExtractP0 (f : Frame) (s : State) : Host.Outcome State Fault Refusal := .next (s.decodePort 0 (subOfFrame f 0))

/-- EXTRACT_P1: frame bytes 11 to 18 are the sub-frame of port 1. -/
def execExtractP1 (f : Frame) (s : State) : Host.Outcome State Fault Refusal := .next (s.decodePort 1 (subOfFrame f 1))

/-- EXTRACT_P2: frame bytes 20 to 27 are the sub-frame of port 2. -/
def execExtractP2 (f : Frame) (s : State) : Host.Outcome State Fault Refusal := .next (s.decodePort 2 (subOfFrame f 2))

/-- EXTRACT_P3: frame bytes 29 to 36 are the sub-frame of port 3. -/
def execExtractP3 (f : Frame) (s : State) : Host.Outcome State Fault Refusal := .next (s.decodePort 3 (subOfFrame f 3))

end Sys2Proof.Machine
end

