-- ==== Sys2Proof/Machine/FrameCommands.lean ====
section
/-! DEFINITION. The decode commands FRAME and SUBFRAME (40_frame_split_and_decode R68, R71). -/

namespace Sys2Proof.Machine

/-- FRAME, acceptance step (R68): latch and start the sequencer; the response comes with the fourth DSTEP (R69). -/
def execFrame (_u : BitVec 2) (f : Frame) (s : State) : Host.Outcome State Fault Refusal :=
  .next (s.accept fun s => s.needPorts fun s => s.latchFrame f)

/-- SUBFRAME (R71): the whole decode of one sub-frame in one step. -/
def execSubframe (p : PortIdx) (sf : SubFrame) (s : State) : Host.Outcome State Fault Refusal :=
  .next (s.accept fun s => s.needPorts fun s => (s.decodePort p sf).respond .command .ok [])

end Sys2Proof.Machine
end

