-- ==== Sys2Proof/Machine/Illegal.lean ====
section
/-! DEFINITION. The reserved rows of both channels: consumed, no state change, BadCommand (30_encoding R63; 44 R123; 60 R129). -/

namespace Sys2Proof.Machine

/-- An illegal header with `H[2] = 1` (R63, R129). -/
def execCmdReservedOp (_h : Byte) (s : State) : Host.Outcome State Fault Refusal := .next s.badCommand

/-- An illegal header with `H[3] = 1` (R63, R129). -/
def execCmdReservedB3 (_h : Byte) (s : State) : Host.Outcome State Fault Refusal := .next s.badCommand

/-- An illegal header with `H[4] = 1` (R63, R129). -/
def execCmdReservedB4 (_h : Byte) (s : State) : Host.Outcome State Fault Refusal := .next s.badCommand

/-- An illegal header with `H[5] = 1` (R63, R129). -/
def execCmdReservedB5 (_h : Byte) (s : State) : Host.Outcome State Fault Refusal := .next s.badCommand

/-- An illegal query with bit 1 of `Q0` set (R63, R129). -/
def execQryReservedB1 (_q0 _q1 : Byte) (s : State) : Host.Outcome State Fault Refusal := .next s.badQuery

/-- An illegal query with bit 2 of `Q0` set (R63, R129). -/
def execQryReservedB2 (_q0 _q1 : Byte) (s : State) : Host.Outcome State Fault Refusal := .next s.badQuery

/-- An illegal query with bit 3 of `Q0` set (R63, R129). -/
def execQryReservedB3 (_q0 _q1 : Byte) (s : State) : Host.Outcome State Fault Refusal := .next s.badQuery

/-- An illegal query with bit 4 of `Q0` set (R63, R129). -/
def execQryReservedB4 (_q0 _q1 : Byte) (s : State) : Host.Outcome State Fault Refusal := .next s.badQuery

/-- An illegal query with bit 5 of `Q0` set (R63, R129). -/
def execQryReservedB5 (_q0 _q1 : Byte) (s : State) : Host.Outcome State Fault Refusal := .next s.badQuery

/-- An illegal query with bit 6 of `Q0` set (R63, R129). -/
def execQryReservedB6 (_q0 _q1 : Byte) (s : State) : Host.Outcome State Fault Refusal := .next s.badQuery

/-- An illegal query with bit 7 of `Q0` set (R63, R129). -/
def execQryReservedB7 (_q0 _q1 : Byte) (s : State) : Host.Outcome State Fault Refusal := .next s.badQuery

end Sys2Proof.Machine
end

