-- ==== Sys2Proof/Machine/Query.lean ====
section
/-! DEFINITION. The queries GET and ISACTIVE (44_session_and_query R117 to R120): one step, in every state, writing nothing. -/

namespace Sys2Proof.Machine

/-- GET (R117): the 25-byte record of the slot (R60). -/
def execGet (q1 : Byte) (s : State) : Host.Outcome State Fault Refusal := .next (s.queryWith q1 25 recordOf)

/-- ISACTIVE (R118): one byte, bit 0 = `active(p)` (R61). -/
def execIsactive (q1 : Byte) (s : State) : Host.Outcome State Fault Refusal := .next (s.queryWith q1 1 fun po => [bitAt po.active 0])

end Sys2Proof.Machine
end

