-- ==== Sys2Proof/Machine/Session.lean ====
section
/-! DEFINITION. The session commands START and STOP (44_session_and_query R114 to R116, R121). -/

namespace Sys2Proof.Machine

/-- START (R114): in every state with `busy = 0` it re-initialises all four slots and sets `alloc`; always OK (R121). -/
def execStart (_u : BitVec 2) (s : State) : Host.Outcome State Fault Refusal :=
  .next (s.accept fun s => s.startPorts.respond .command .ok [])

/-- STOP (R115): clears `alloc` and nothing else; idempotent, always OK (R116). -/
def execStop (_u : BitVec 2) (s : State) : Host.Outcome State Fault Refusal :=
  .next (s.accept fun s => { s with alloc := false }.respond .command .ok [])

end Sys2Proof.Machine
end

