-- ==== Sys2Proof/Machine/StatusBytes.lean ====
section
/-! DEFINITION. The status rows (60_exceptions R124 to R129; 30 R59): a response of one status byte (log 11). -/

namespace Sys2Proof.Machine

/-- STATUS_OK (R125): the status byte issued on its channel, with no data. -/
def execStatusOk (ch : Channel) (s : State) : Host.Outcome State Fault Refusal := .next (s.raiseStatus ch .ok 0)

/-- STATUS_NotInitialized (R126): the status byte issued on its channel, with no data. -/
def execStatusNotInitialized (ch : Channel) (s : State) : Host.Outcome State Fault Refusal := .next (s.raiseStatus ch .notInitialized 0)

/-- STATUS_OutOfRange (R127): the status byte issued on its channel, with no data. -/
def execStatusOutOfRange (ch : Channel) (s : State) : Host.Outcome State Fault Refusal := .next (s.raiseStatus ch .outOfRange 0)

/-- STATUS_BadCommand (R129): the status byte issued on its channel, with no data. -/
def execStatusBadCommand (ch : Channel) (s : State) : Host.Outcome State Fault Refusal := .next (s.raiseStatus ch .badCommand 0)

end Sys2Proof.Machine
end

