-- ==== Sys2Proof/Machine/StickFields.lean ====
section
/-! DEFINITION. The stick rows of a sub-frame (42_sticks_calibration R101 to R105): step count and calibration of one axis. -/

namespace Sys2Proof.Machine

/-- STICK_LX (R102): sub-frame byte 2. -/
def execStickLX (p : PortIdx) (v : Byte) (s : State) : Host.Outcome State Fault Refusal :=
  .next (s.modifyPort p fun po => po.stepAxis .lx v)

/-- STICK_LY (R103): sub-frame byte 3. -/
def execStickLY (p : PortIdx) (v : Byte) (s : State) : Host.Outcome State Fault Refusal :=
  .next (s.modifyPort p fun po => po.stepAxis .ly v)

/-- STICK_RX (R104): sub-frame byte 4. -/
def execStickRX (p : PortIdx) (v : Byte) (s : State) : Host.Outcome State Fault Refusal :=
  .next (s.modifyPort p fun po => po.stepAxis .rx v)

/-- STICK_RY (R105): sub-frame byte 5. -/
def execStickRY (p : PortIdx) (v : Byte) (s : State) : Host.Outcome State Fault Refusal :=
  .next (s.modifyPort p fun po => po.stepAxis .ry v)

end Sys2Proof.Machine
end

