-- ==== Sys2Proof/Machine/TriggerFields.lean ====
section
/-! DEFINITION. The trigger rows of a sub-frame (43_triggers R109 to R113). -/

namespace Sys2Proof.Machine

/-- TRIG_L (R110): sub-frame byte 6. -/
def execTrigL (p : PortIdx) (v : Byte) (s : State) : Host.Outcome State Fault Refusal :=
  .next (s.modifyPort p fun po => po.setTrigger s.trigOffset s.trigSpan .l v)

/-- TRIG_R (R111): sub-frame byte 7. -/
def execTrigR (p : PortIdx) (v : Byte) (s : State) : Host.Outcome State Fault Refusal :=
  .next (s.modifyPort p fun po => po.setTrigger s.trigOffset s.trigSpan .r v)

end Sys2Proof.Machine
end

