-- ==== Sys2Proof/Machine/Dispatch.lean ====
section
/-! DEFINITION. The dispatch: one arm per constructor of Instr, each one direct call of its meaning. -/

namespace Sys2Proof.Machine

def exec (i : Instr) (s : State) : Host.Outcome State Fault Refusal :=
  match i with
  | .start u => Sys2Proof.Machine.execStart u s
  | .stop u => Sys2Proof.Machine.execStop u s
  | .frame u f => Sys2Proof.Machine.execFrame u f s
  | .subframe p sf => Sys2Proof.Machine.execSubframe p sf s
  | .cmdReservedOp h => Sys2Proof.Machine.execCmdReservedOp h s
  | .cmdReservedB3 h => Sys2Proof.Machine.execCmdReservedB3 h s
  | .cmdReservedB4 h => Sys2Proof.Machine.execCmdReservedB4 h s
  | .cmdReservedB5 h => Sys2Proof.Machine.execCmdReservedB5 h s
  | .get q1 => Sys2Proof.Machine.execGet q1 s
  | .isactive q1 => Sys2Proof.Machine.execIsactive q1 s
  | .qryReservedB1 q0 q1 => Sys2Proof.Machine.execQryReservedB1 q0 q1 s
  | .qryReservedB2 q0 q1 => Sys2Proof.Machine.execQryReservedB2 q0 q1 s
  | .qryReservedB3 q0 q1 => Sys2Proof.Machine.execQryReservedB3 q0 q1 s
  | .qryReservedB4 q0 q1 => Sys2Proof.Machine.execQryReservedB4 q0 q1 s
  | .qryReservedB5 q0 q1 => Sys2Proof.Machine.execQryReservedB5 q0 q1 s
  | .qryReservedB6 q0 q1 => Sys2Proof.Machine.execQryReservedB6 q0 q1 s
  | .qryReservedB7 q0 q1 => Sys2Proof.Machine.execQryReservedB7 q0 q1 s
  | .extractP0 f => Sys2Proof.Machine.execExtractP0 f s
  | .extractP1 f => Sys2Proof.Machine.execExtractP1 f s
  | .extractP2 f => Sys2Proof.Machine.execExtractP2 f s
  | .extractP3 f => Sys2Proof.Machine.execExtractP3 f s
  | .btnA p v => Sys2Proof.Machine.execBtnA p v s
  | .btnB p v => Sys2Proof.Machine.execBtnB p v s
  | .btnX p v => Sys2Proof.Machine.execBtnX p v s
  | .btnY p v => Sys2Proof.Machine.execBtnY p v s
  | .btnLeft p v => Sys2Proof.Machine.execBtnLeft p v s
  | .btnRight p v => Sys2Proof.Machine.execBtnRight p v s
  | .btnDown p v => Sys2Proof.Machine.execBtnDown p v s
  | .btnUp p v => Sys2Proof.Machine.execBtnUp p v s
  | .btnStart p v => Sys2Proof.Machine.execBtnStart p v s
  | .btnZ p v => Sys2Proof.Machine.execBtnZ p v s
  | .btnR p v => Sys2Proof.Machine.execBtnR p v s
  | .btnL p v => Sys2Proof.Machine.execBtnL p v s
  | .sub1Unused p v => Sys2Proof.Machine.execSub1Unused p v s
  | .stickLX p v => Sys2Proof.Machine.execStickLX p v s
  | .stickLY p v => Sys2Proof.Machine.execStickLY p v s
  | .stickRX p v => Sys2Proof.Machine.execStickRX p v s
  | .stickRY p v => Sys2Proof.Machine.execStickRY p v s
  | .trigL p v => Sys2Proof.Machine.execTrigL p v s
  | .trigR p v => Sys2Proof.Machine.execTrigR p v s
  | .statusOk ch => Sys2Proof.Machine.execStatusOk ch s
  | .statusNotInitialized ch => Sys2Proof.Machine.execStatusNotInitialized ch s
  | .statusOutOfRange ch => Sys2Proof.Machine.execStatusOutOfRange ch s
  | .statusBadCommand ch => Sys2Proof.Machine.execStatusBadCommand ch s

end Sys2Proof.Machine
end

