-- ==== Sys2Proof/Machine/Fetch.lean ====
section
/-! DEFINITION. Which agent moves, where its instruction's bytes stand, what of the input a step consumes and what a step adds around
the instruction (40 R67, R69; 20 R40; 60 R137), and the placing of one instruction word for the next step. -/

namespace Sys2Proof.Machine

/-- The reset input is asserted in the next step (R139; log 5). -/
def State.resetAsserted (s : State) : Bool := s.turns.head? == some .reset

/-- The agent that goes first if both can move: the schedule's, and where it is empty the free value's (R40, R137; log 2). -/
def State.favoured (s : State) : Config.Agent :=
  match s.turns with
  | .agent a :: _ => a
  | _ => Config.arbiter s.choice

/-- The decoder can move: a latched frame is pending, or a command is presented (R67, R69). -/
def State.decoderReady (s : State) : Bool := s.busy || !s.cmdIn.isEmpty

/-- The consumer can move: a query is presented; it is accepted whatever `busy` is (R120). -/
def State.consumerReady (s : State) : Bool := !s.qryIn.isEmpty

/-- The agent whose step the next step is; none where nothing is presented and no frame is pending (R40, R140). -/
def State.mover (s : State) : Option Config.Agent :=
  match s.decoderReady, s.consumerReady with
  | false, false => none
  | true, false => some .decoder
  | false, true => some .consumer
  | true, true => some s.favoured

/-- The place and the bytes of the next instruction: the query at the head of its channel, the block of `pidx` in the latched
frame while `busy = 1` (R69), else the command stream (R67). -/
def State.fetch (s : State) : Option (Place × List Byte) :=
  match s.mover with
  | none => none
  | some .consumer =>
    match s.qryIn with
    | q :: _ => some (.query, queryBytes q)
    | [] => none
  | some .decoder => if s.busy then some (.frameBlock s.pidx, s.fbuf.toList) else some (.command, s.cmdIn)

/-- The accepted packet leaves its channel; a latched frame stays (R27, R63). -/
def State.consume (s : State) (pl : Place) (rest : List Byte) : State :=
  match pl with
  | .command => { s with cmdIn := rest }
  | .query => { s with qryIn := s.qryIn.tail }
  | _ => s

/-- What DSTEP adds to the extractor row it runs: the sequencer moves on (R69). Other instructions need nothing. -/
def retire (pl : Place) (o : Host.Outcome State Fault Refusal) : Host.Outcome State Fault Refusal :=
  match pl, o with
  | .frameBlock p, .next s => .next (s.advance p)
  | _, o => o

/-- One instruction word stored where the next step fetches (log 1): as the packet on the command channel with the decoder free
to accept it, as the query at the head of its channel, or as the latched frame at its first block. -/
def State.placeWord (s : State) (nbits w : Nat) : State :=
  let bytes := wordBytes (1 + Config.frameLen) (w % 2 ^ nbits)
  match wordPlace nbits with
  | some .command =>
    let len := match decodeCommand bytes with
      | .ok (i, _) => i.packetBytes
      | .error _ => bytes.length
    { s with cmdIn := bytes.take len ++ s.cmdIn, turns := .agent .decoder :: s.turns.tail, busy := false, pidx := 0 }
  | some .query => { s with qryIn := BitVec.ofNat 16 w :: s.qryIn, turns := .agent .consumer :: s.turns.tail }
  | some (.frameBlock p) =>
    match takeBytes Config.frameLen bytes with
    | some (f, _) => { s with fbuf := f, busy := true, pidx := p, turns := .agent .decoder :: s.turns.tail }
    | none => s
  | _ => s

end Sys2Proof.Machine
end

