-- ==== Sys2Proof/Machine/Step.lean ====
section
/-! DEFINITION. One step of GCFD in the total order of 20_memory R40: reset, the wait for input, or the instruction of the agent
that moves. -/

namespace Sys2Proof.Machine

/-- One step. With reset asserted nothing is accepted (R139); with nothing to do the machine waits (R140; log 3); else the moving
agent's instruction is decoded and run on the state with its packet consumed and the last step's outputs gone. -/
def step (s : State) : Host.Outcome State Fault Refusal :=
  if s.resetAsserted then .next s.hardReset
  else
    match s.fetch with
    | none => .next s.beginStep
    | some (pl, bytes) =>
      match decode pl bytes with
      | .ok (i, rest) => retire pl (exec i (s.beginStep.consume pl rest))
      | .error e => .refused (.undecodable e)

/-- `s` with the instruction of word `w` where `step` fetches next (log 1). -/
def State.withFetchWord (s : State) (nbits w : Nat) : State := s.placeWord nbits w

end Sys2Proof.Machine
end

