-- ==== Sys2Proof/Machine/Text.lean ====
section
/-! DEFINITION. The text of requests and responses (30_encoding R65) and the pseudo-operations FRAME4, SF and ZERO (R66). -/

namespace Sys2Proof.Machine

/-- `ZERO`: the all-zero sub-frame (R66). -/
def zeroSub : SubFrame := #v[0, 0, 0, 0, 0, 0, 0, 0]

/-- The mask of a button in its byte (R49, R50). -/
def buttonMask : Button → Byte
  | .a => 0x01
  | .b => 0x02
  | .x => 0x04
  | .y => 0x08
  | .left => 0x10
  | .right => 0x20
  | .down => 0x40
  | .up => 0x80
  | .start => 0x01
  | .z => 0x02
  | .r => 0x04
  | .l => 0x08

/-- The button stands in sub-frame byte 1 (R50); the others stand in byte 0 (R49). -/
def inByteOne : Button → Bool
  | .start | .z | .r | .l => true
  | _ => false

/-- The OR of the masks of the listed buttons that stand in byte 0 (`hi = false`) or byte 1. -/
def buttonByte (hi : Bool) (names : List Button) : Byte :=
  names.foldl (fun acc n => if inByteOne n == hi then acc ||| buttonMask n else acc) 0

/-- `SF(btns; lx ly rx ry; lt rt)` (R66). -/
def sfOf (names : List Button) (lx ly rx ry lt rt : Byte) : SubFrame :=
  #v[buttonByte false names, buttonByte true names, lx, ly, rx, ry, lt, rt]

/-- `FRAME4 A | B | C | D`: the five ignored bytes are 00 (R66). -/
def frame4 (sa sb sc sd : SubFrame) : Frame :=
  #v[0, 0,
     sa[0], sa[1], sa[2], sa[3], sa[4], sa[5], sa[6], sa[7], 0,
     sb[0], sb[1], sb[2], sb[3], sb[4], sb[5], sb[6], sb[7], 0,
     sc[0], sc[1], sc[2], sc[3], sc[4], sc[5], sc[6], sc[7], 0,
     sd[0], sd[1], sd[2], sd[3], sd[4], sd[5], sd[6], sd[7]]

/-- One hexadecimal digit. -/
def hexDigit (n : Nat) : Char := if n < 10 then Char.ofNat (48 + n) else Char.ofNat (55 + n)

/-- A byte as two hexadecimal digits (R65). -/
def hexByte (b : Byte) : String := String.ofList [hexDigit (b.toNat / 16), hexDigit (b.toNat % 16)]

/-- Bytes separated by spaces (R65). -/
def hexBytes (l : List Byte) : String := String.intercalate " " (l.map hexByte)

/-- The text of a request, one line (R65); the notation has no line for an illegal request or a data row. -/
def requestText : Instr → Option String
  | .start _ => some "START"
  | .stop _ => some "STOP"
  | .frame _ f => some ("FRAME " ++ hexBytes f.toList)
  | .subframe p sf => some ("SUBFRAME " ++ toString p.toNat ++ ", " ++ hexBytes sf.toList)
  | .get q1 => some ("GET " ++ toString (sext8 q1))
  | .isactive q1 => some ("ISACTIVE " ++ toString (sext8 q1))
  | _ => none

/-- The text of a status (R65, R124). -/
def statusText : Status → String
  | .ok => "-> OK"
  | .notInitialized => "-> NotInitialized"
  | .outOfRange => "-> OutOfRange"
  | .badCommand => "-> BadCommand"

/-- The text of a response: the status, then for ISACTIVE the bit and for GET the record's bytes (R65). -/
def responseText (r : Response) : String :=
  match r.data with
  | [] => statusText r.status
  | [b] => statusText r.status ++ (if r.status = .ok then " active=" ++ toString b.toNat else "")
  | l => statusText r.status ++ (if r.status = .ok then " " ++ hexBytes l else "")

end Sys2Proof.Machine
end

