-- ==== Sys2Proof/Safety.lean ====
section
/-! DEFINITION. The terms statements are made in: what a decode does to a port slot said as a relation on integers (not through the
machine's own functions), the invariant of 10_state R30, the parts of the state two agents share, and runs. -/

namespace Sys2Proof.Machine

/-- The bit of a button in its sub-frame byte, 0-based (R49, R50). -/
def buttonBit : Button → Nat
  | .a => 0
  | .b => 1
  | .x => 2
  | .y => 3
  | .left => 4
  | .right => 5
  | .down => 6
  | .up => 7
  | .start => 0
  | .z => 1
  | .r => 2
  | .l => 3

/-- The sub-frame byte a button stands in (R49, R50). -/
def buttonByteIndex : Button → Fin 8
  | .a | .b | .x | .y | .left | .right | .down | .up => 0
  | .start | .z | .r | .l => 1

/-- The sub-frame byte of an axis (R51, R93). -/
def axisByteIndex : Axis → Fin 8
  | .lx => 2
  | .ly => 3
  | .rx => 4
  | .ry => 5

/-- The sub-frame byte of a trigger (R52). -/
def triggerByteIndex : Trigger → Fin 8
  | .l => 6
  | .r => 7

/-- The row of a button over its data byte. -/
def buttonRow (n : Button) (p : PortIdx) (v : Byte) : Instr :=
  match n with
  | .a => .btnA p v
  | .b => .btnB p v
  | .x => .btnX p v
  | .y => .btnY p v
  | .left => .btnLeft p v
  | .right => .btnRight p v
  | .down => .btnDown p v
  | .up => .btnUp p v
  | .start => .btnStart p v
  | .z => .btnZ p v
  | .r => .btnR p v
  | .l => .btnL p v

/-- The row of an axis over its data byte. -/
def stickRow (ax : Axis) (p : PortIdx) (v : Byte) : Instr :=
  match ax with
  | .lx => .stickLX p v
  | .ly => .stickLY p v
  | .rx => .stickRX p v
  | .ry => .stickRY p v

/-- The row of a trigger over its data byte. -/
def trigRow (t : Trigger) (p : PortIdx) (v : Byte) : Instr :=
  match t with
  | .l => .trigL p v
  | .r => .trigR p v

/-- `observedMax` after a byte (R94). -/
def maxAfter (raw cmax : Nat) : Nat := if 128 < raw then max cmax raw else cmax

/-- `observedMin` after a byte (R95). -/
def minAfter (raw cmin : Nat) : Nat := if raw < 128 then min cmin raw else cmin

/-- The active bound, from the updated pair (R96). -/
def boundAfter (raw cmax cmin : Nat) : Nat := if 128 ≤ raw then maxAfter raw cmax else minAfter raw cmin

/-- `d`: the distance of the active bound from the centre (R97). -/
def distAfter (raw cmax cmin : Nat) : Int := |(boundAfter raw cmax cmin : Int) - 128|

/-- What a stick byte does to its axis (R94 to R99): the pair after it; the count is 0 where `d = 0`, else the largest integer `k`
with `k * d ≤ (raw - 128) * 80`; it is in -80..80. -/
def axisRel (raw : Byte) (old : Cal) (k : Byte) (new : Cal) : Prop :=
  new.max.toNat = maxAfter raw.toNat old.max.toNat ∧
  new.min.toNat = minAfter raw.toNat old.min.toNat ∧
  (distAfter raw.toNat old.max.toNat old.min.toNat = 0 → k.toInt = 0) ∧
  (distAfter raw.toNat old.max.toNat old.min.toNat ≠ 0 →
    k.toInt * distAfter raw.toNat old.max.toNat old.min.toNat ≤ ((raw.toNat : Int) - 128) * 80 ∧
    ((raw.toNat : Int) - 128) * 80 < (k.toInt + 1) * distAfter raw.toNat old.max.toNat old.min.toNat) ∧
  -80 ≤ k.toInt ∧ k.toInt ≤ 80

/-- What a trigger byte gives (R109): `raw - offset` held between 0 and `span`. -/
def trigRel (offset span raw t : Byte) : Prop :=
  (t.toNat : Int) = max 0 (min ((raw.toNat : Int) - (offset.toNat : Int)) (span.toNat : Int))

/-- Every byte of the sub-frame is zero (R72). -/
abbrev allZero (sf : SubFrame) : Prop := ∀ j : Fin 8, sf[j] = 0#8

/-- The decoded fields and the calibration are frozen (R72). -/
def sameDecoded (old new : Port) : Prop :=
  new.btn = old.btn ∧ new.stick = old.stick ∧ new.trig = old.trig ∧ new.cal = old.cal

/-- What the decode of a sub-frame does to a port slot (R72 to R74). -/
def decodeRel (offset span : Byte) (sf : SubFrame) (old new : Port) : Prop :=
  new.raw = sf ∧
  (allZero sf → sameDecoded old new) ∧
  (¬ allZero sf →
    (∀ n : Button, new.btn.get n = (sf[buttonByteIndex n]).getLsbD (buttonBit n)) ∧
    (∀ ax : Axis, axisRel sf[axisByteIndex ax] (old.cal.get ax) (new.stick.get ax) (new.cal.get ax)) ∧
    (∀ t : Trigger, trigRel offset span sf[triggerByteIndex t] (new.trig.get t)))

/-- A slot in the ranges of R30. -/
def Port.inRange (span : Byte) (po : Port) : Prop :=
  (∀ ax : Axis, 208 ≤ (po.cal.get ax).max.toNat ∧ (po.cal.get ax).min.toNat ≤ 48) ∧
  (∀ ax : Axis, -80 ≤ (po.stick.get ax).toInt ∧ (po.stick.get ax).toInt ≤ 80) ∧
  (∀ t : Trigger, (po.trig.get t).toNat ≤ span.toNat)

/-- The invariant of every reachable state (R30). -/
def State.Inv (s : State) : Prop :=
  (∀ p : PortIdx, (s.port p).inRange s.trigSpan) ∧
  (s.busy = false → s.pidx = 0) ∧
  (s.alloc = false → s.busy = false)

/-- The whole state of the spec (R13) is the same in both. -/
def sameSpecState (s t : State) : Prop :=
  t.alloc = s.alloc ∧ t.busy = s.busy ∧ t.pidx = s.pidx ∧ t.fbuf = s.fbuf ∧ t.ports = s.ports

/-- What the decoder's steps depend on is the same in both: the spec's state, the two static inputs and the command stream. -/
def sameDecoderView (s t : State) : Prop :=
  sameSpecState s t ∧ t.trigOffset = s.trigOffset ∧ t.trigSpan = s.trigSpan ∧ t.cmdIn = s.cmdIn

/-- The schedule asserts reset nowhere. -/
def State.noReset (s : State) : Prop := Turn.reset ∉ s.turns

/-- Every presented command and query has been answered (R153). -/
def State.quiescent (s : State) : Prop := s.cmdIn = [] ∧ s.qryIn = [] ∧ s.busy = false

/-- The slot START leaves (R114). -/
def Port.isStart (po : Port) : Prop :=
  (∀ n : Button, po.btn.get n = false) ∧
  (∀ ax : Axis, (po.stick.get ax).toInt = 0) ∧
  (∀ t : Trigger, (po.trig.get t).toNat = 0) ∧
  allZero po.raw ∧
  (∀ ax : Axis, (po.cal.get ax).max.toNat = 208 ∧ (po.cal.get ax).min.toNat = 48)

/-- The calibration of every axis is at least as wide in `new` (R20, R106). -/
def calWidens (old new : Port) : Prop :=
  ∀ ax : Axis, (old.cal.get ax).max.toNat ≤ (new.cal.get ax).max.toNat ∧
    (new.cal.get ax).min.toNat ≤ (old.cal.get ax).min.toNat

/-- The frame of the fields after an instruction that writes port slot `p` only. -/
def onlyPort (p : PortIdx) (s t : State) : Prop :=
  t = { s with ports := t.ports } ∧ ∀ q : PortIdx, q ≠ p → t.port q = s.port q

/-- What the extractor row of port `p` does: the 8 frame bytes from `2 + 9p` on are decoded into port `p` (40 R75; log 9). -/
def extractsTo (row : Frame → Instr) (p : PortIdx) : Prop :=
  ∀ (f : Frame) (s : State), ∃ (t : State) (sf : SubFrame), exec (row f) s = .next t ∧
    (∀ j : Fin 8, f.toList[2 + 9 * p.toNat + j.val]? = some sf[j]) ∧
    decodeRel s.trigOffset s.trigSpan sf (s.port p) (t.port p) ∧ onlyPort p s t

/-- What a status row does: the one byte of its code stands on its channel and nothing else changes (30 R59, 60 R124; log 11). -/
def issues (row : Channel → Instr) (code : Byte) : Prop :=
  ∀ s : State,
    (∃ r, responseBytes r = [code] ∧ exec (row .command) s = .next { s with cmdRsp := some r }) ∧
    (∃ r, responseBytes r = [code] ∧ exec (row .query) s = .next { s with qryRsp := some r })

/-- The data rows of one sub-frame of port `p`, in the table's order (R74). -/
def fieldRows (p : PortIdx) (sf : SubFrame) : List Instr :=
  [.btnA p sf[0], .btnB p sf[0], .btnX p sf[0], .btnY p sf[0], .btnLeft p sf[0], .btnRight p sf[0], .btnDown p sf[0],
   .btnUp p sf[0], .btnStart p sf[1], .btnZ p sf[1], .btnR p sf[1], .btnL p sf[1], .sub1Unused p sf[1],
   .stickLX p sf[2], .stickLY p sf[3], .stickRX p sf[4], .stickRY p sf[5], .trigL p sf[6], .trigR p sf[7]]

/-- Run instructions one after another, stopping at the first that gives no next state. -/
def execAll : List Instr → State → Host.Outcome State Fault Refusal
  | [], s => .next s
  | i :: is, s =>
    match exec i s with
    | .next t => execAll is t
    | o => o

end Sys2Proof.Machine
end

