-- ==== Sys2Proof/Certificates/Slice0/Obligations.lean ====
section
/-! DEFINITION. The statements for the provers. Each docstring names the rules of spec/ it formalises; where a clause rests on a
choice of the model it names the log entry. -/

open Sys2Proof Sys2Proof.Machine

/-! ## Encoding -/

/-- Decoding what an instruction encodes to, in its place, gives it back with the bytes after it untouched, for every well-formed
instruction and every operand (30 R47 to R64). -/
def Obligations.DecodeOfEncodeGivesBack : Prop :=
  ∀ (i : Instr) (rest : List Byte), i.wf = true → decode i.place (encode i ++ rest) = .ok (i, rest)

/-- Every word has one meaning: what decodes is well-formed, stands in the place it was read in, and encodes to the bytes it was
read from (30 R47 to R64). That a byte matching several reserved rows stands for one of them is the model's choice (log 12). -/
def Obligations.EncodeOfDecodeGivesBytes : Prop :=
  ∀ (pl : Place) (l rest : List Byte) (i : Instr), decode pl l = .ok (i, rest) →
    i.wf = true ∧ i.place = pl ∧ encode i ++ rest = l

/-- The length of a packet: 1, 1, 38 and 9 bytes for START, STOP, FRAME and SUBFRAME, 1 for an illegal header, 2 for a query (30 R64). -/
def Obligations.PacketLengths : Prop :=
  (∀ (h : Byte) (l rest : List Byte) (i : Instr), decode .command (h :: l) = .ok (i, rest) →
    (h :: l).length = rest.length +
      (if h &&& 0x3C#8 ≠ 0#8 then 1 else if h &&& 3#8 = 2#8 then 38 else if h &&& 3#8 = 3#8 then 9 else 1)) ∧
  (∀ (l rest : List Byte) (i : Instr), decode .query l = .ok (i, rest) → l.length = rest.length + 2)

/-- Illegal requests (30 R63): an illegal command header is consumed alone, an illegal query is consumed, nothing changes and the
answer is BadCommand. (That the response to an illegal query has no data byte is the model's choice: log 14; the clause here names
the status only.) -/
def Obligations.IllegalRequestsAnswerBadCommand : Prop :=
  (∀ (s : State) (h : Byte) (rest : List Byte), s.resetAsserted = false → s.mover = some .decoder → s.busy = false →
    s.cmdIn = h :: rest → (h.getLsbD 2 = true ∨ h.extractLsb' 3 3 ≠ 0#3) →
    ∃ t, step s = .next t ∧ sameSpecState s t ∧ t.cmdIn = rest ∧ t.qryIn = s.qryIn ∧
      t.cmdRsp = some { status := .badCommand, data := [] } ∧ t.qryRsp = none) ∧
  (∀ (s : State) (q : BitVec 16) (qs : List (BitVec 16)), s.resetAsserted = false → s.mover = some .consumer →
    s.qryIn = q :: qs → q.extractLsb' 0 8 ≠ 0x00#8 → q.extractLsb' 0 8 ≠ 0x01#8 →
    ∃ t r, step s = .next t ∧ sameSpecState s t ∧ t.cmdIn = s.cmdIn ∧ t.qryIn = qs ∧
      t.cmdRsp = none ∧ t.qryRsp = some r ∧ r.status = .badCommand)

/-- A few words of the spec decode to what it says they stand for (30 R65; 41 R80; 60 R127; 95 V2, V9, V43). -/
def Obligations.WrittenWordsDecode : Prop :=
  decode .command [0x00#8] = .ok (.start 0, []) ∧
  decode .command [0x81#8] = .ok (.stop 2, []) ∧
  decode .command [0x83#8, 2, 4, 0x80, 0x1E, 0x80, 0x80, 0xE4, 0x80] =
    .ok (.subframe 2 #v[2, 4, 0x80, 0x1E, 0x80, 0x80, 0xE4, 0x80], []) ∧
  decode .command [0x05#8] = .ok (.cmdReservedOp 0x05, []) ∧
  decode .query [0x00#8, 0xFF] = .ok (.get 0xFF, []) ∧
  decode .query [0x01#8, 0x02] = .ok (.isactive 2, []) ∧
  decode (.field 1 .btnUp) [0x80#8] = .ok (.btnUp 1 0x80, []) ∧
  decode (.response .query) [0x02#8] = .ok (.statusOutOfRange .query, [])

/-! ## The step -/

/-- A step runs the decoded instruction: the command at the head of its channel with its packet consumed, the query at the head of
its channel, or, while busy, the extractor row of `pidx` over `fbuf`, after which the sequencer moves (40 R67, R69; 20 R40). That
the decode step, which has no row in the table, is that row followed by the sequencer is the model's choice (log 9). Around it a step
clears the outputs of the step before and spends its turn (log 2, 4). -/
def Obligations.StepRunsTheDecodedInstruction : Prop :=
  (∀ (s : State) (i : Instr) (rest : List Byte), s.resetAsserted = false → s.mover = some .decoder → s.busy = false →
    decode .command s.cmdIn = .ok (i, rest) →
    step s = exec i { s with cmdIn := rest, turns := s.turns.tail, choice := s.choice + 1, cmdRsp := none, qryRsp := none }) ∧
  (∀ (s : State) (q : BitVec 16) (qs : List (BitVec 16)) (i : Instr), s.resetAsserted = false → s.mover = some .consumer →
    s.qryIn = q :: qs → decode .query [q.extractLsb' 0 8, q.extractLsb' 8 8] = .ok (i, []) →
    step s = exec i { s with qryIn := qs, turns := s.turns.tail, choice := s.choice + 1, cmdRsp := none, qryRsp := none }) ∧
  (∀ (s : State) (i : Instr) (rest : List Byte), s.resetAsserted = false → s.mover = some .decoder → s.busy = true →
    decode (.frameBlock s.pidx) s.fbuf.toList = .ok (i, rest) →
    ∃ t, exec i { s with turns := s.turns.tail, choice := s.choice + 1, cmdRsp := none, qryRsp := none } = .next t ∧
      step s = .next (if s.pidx = 3 then
          { t with busy := false, pidx := 0, cmdRsp := some { status := .ok, data := [] } }
        else { t with pidx := s.pidx + 1 }))

/-- Which agent moves: one that can; none only where nothing is presented and no frame is pending; and where both can, either one,
as the schedule says (20 R40, 60 R137, 44 R120). The schedule is the model's (log 2). -/
def Obligations.EveryInterleavingIsAStep : Prop :=
  (∀ s : State, s.mover = none ↔ (s.busy = false ∧ s.cmdIn = [] ∧ s.qryIn = [])) ∧
  (∀ s : State, s.mover = some .consumer → s.qryIn ≠ []) ∧
  (∀ s : State, s.mover = some .decoder → s.busy = true ∨ s.cmdIn ≠ []) ∧
  (∀ (s : State) (a : Config.Agent) (ts : List Turn), s.qryIn ≠ [] → (s.busy = true ∨ s.cmdIn ≠ []) →
    ({ s with turns := .agent a :: ts } : State).mover = some a)

/-- With nothing presented and no frame pending the machine waits: no state of the spec changes and nothing is answered (70 R140; log 3). -/
def Obligations.NothingToDoWaits : Prop :=
  ∀ s : State, s.resetAsserted = false → s.busy = false → s.cmdIn = [] → s.qryIn = [] →
    ∃ t, step s = .next t ∧ sameSpecState s t ∧ t.cmdIn = [] ∧ t.qryIn = [] ∧ t.cmdRsp = none ∧ t.qryRsp = none

/-- Nothing stops the machine: a step has a next state, but where the decoder moves to accept the packet of a legal FRAME or SUBFRAME
header of which fewer bytes are presented than its 38 or 9, which is outside the model (70 R152, R153; 30 R55, R64). That such a step
is refused is the model's choice (log 13). -/
def Obligations.OnlyShortPacketsStop : Prop :=
  ∀ s : State, (∃ t, step s = .next t) ∨
    (∃ (need have_ : Nat) (h : Byte) (rest : List Byte), step s = .refused (.undecodable (.shortCommand need have_)) ∧
      s.resetAsserted = false ∧ s.mover = some .decoder ∧ s.busy = false ∧ s.cmdIn = h :: rest ∧
      s.cmdIn.length = have_ ∧ have_ < need ∧
      ((need = 38 ∧ h &&& 0x3F#8 = 0x02#8) ∨ (need = 9 ∧ h &&& 0x3F#8 = 0x03#8)))

/-- What each step answers: the command channel answers exactly where the decoder moved and left no frame pending, the query channel
exactly where the consumer moved (40 R67, R69; 44 R120). -/
def Obligations.EveryRequestIsAnsweredOnce : Prop :=
  ∀ s t : State, step s = .next t → s.resetAsserted = false →
    (t.cmdRsp.isSome = true ↔ (s.mover = some .decoder ∧ t.busy = false)) ∧
    (t.qryRsp.isSome = true ↔ s.mover = some .consumer)

/-- The outputs of a step are gone in the next: nothing reads them (10 R27; log 4). -/
def Obligations.OutputsAreNeverRead : Prop :=
  ∀ (s : State) (a b : Option Response), step { s with cmdRsp := a, qryRsp := b } = step s

/-! ## Reset -/

/-- The two columns of 10 R28: the state after hardware reset, and what START leaves from a state with the sequencer at rest. -/
def Obligations.ResetAndStartColumns : Prop :=
  (State.reset.alloc = false ∧ State.reset.busy = false ∧ State.reset.pidx = 0 ∧ (∀ j : Fin 37, State.reset.fbuf[j] = 0#8) ∧
    ∀ p, (State.reset.port p).isStart) ∧
  (∀ (u : BitVec 2) (s : State), s.busy = false → s.pidx = 0 →
    ∃ t, exec (.start u) s = .next t ∧ t.alloc = true ∧ t.busy = false ∧ t.pidx = 0 ∧ t.fbuf = s.fbuf ∧ ∀ p, (t.port p).isStart)

/-- Hardware reset (70 R139): while it is asserted nothing is accepted and nothing is answered, a pending frame is abandoned, and
the state is that of the reset column. That a reset asserted is one step, whose next state has the column in it, and that what is
presented stays presented, is the model's choice (log 5). -/
def Obligations.ResetAssertedGivesResetState : Prop :=
  ∀ s : State, s.resetAsserted = true →
    ∃ t, step s = .next t ∧ t.alloc = false ∧ t.busy = false ∧ t.pidx = 0 ∧ (∀ j : Fin 37, t.fbuf[j] = 0#8) ∧
      (∀ p, (t.port p).isStart) ∧ t.cmdIn = s.cmdIn ∧ t.qryIn = s.qryIn ∧ t.cmdRsp = none ∧ t.qryRsp = none

/-! ## Session -/

/-- START (44 R114): every slot at its start value, so inactive, `alloc` 1, answer OK; nothing else changes. -/
def Obligations.StartInitialisesAllPorts : Prop :=
  ∀ (u : BitVec 2) (s : State), s.busy = false →
    ∃ t, exec (.start u) s = .next t ∧ (∀ p, (t.port p).isStart ∧ (t.port p).active = false) ∧
      t = { s with alloc := true, ports := t.ports, cmdRsp := some { status := .ok, data := [] } }

/-- STOP (44 R115): clears `alloc`, answers OK and changes nothing else; the port slots are not cleared. -/
def Obligations.StopClearsAlloc : Prop :=
  ∀ (u : BitVec 2) (s : State), s.busy = false →
    exec (.stop u) s = .next { s with alloc := false, cmdRsp := some { status := .ok, data := [] } }

/-- STOP is idempotent (44 R116): with `alloc = 0`, as after a STOP or straight after hardware reset, it changes nothing and answers
OK; so a second STOP leaves what the first left. -/
def Obligations.StopTwiceIsStopOnce : Prop :=
  (∀ (u : BitVec 2) (s : State), s.busy = false → s.alloc = false →
    exec (.stop u) s = .next { s with cmdRsp := some { status := .ok, data := [] } }) ∧
  (∀ (u v : BitVec 2) (s t : State), s.busy = false → exec (.stop u) s = .next t →
    exec (.stop v) t = .next t ∧ t.alloc = false ∧ t.cmdRsp = some { status := .ok, data := [] }) ∧
  exec (.stop 0) State.reset = .next { State.reset with cmdRsp := some { status := .ok, data := [] } }

/-- A command presented while `busy = 1` is neither executed nor lost (40 R67): every command's meaning leaves the state as it is, which
is the model's choice (log 15), and no step takes a byte from the command channel. That a reset step takes none either, the bytes
staying presented, is the model's choice (log 5). -/
def Obligations.CommandsWaitWhileBusy : Prop :=
  (∀ (i : Instr) (s : State), i.place = .command → s.busy = true → exec i s = .next s) ∧
  (∀ s t : State, s.busy = true → step s = .next t → t.cmdIn = s.cmdIn)

/-! ## Frames and sub-frames -/

/-- FRAME, acceptance (40 R68): with a session it latches the 37 bytes, puts the sequencer at 0 and sets `busy`, without an answer;
without one it answers NotInitialized and writes nothing. -/
def Obligations.FrameLatches : Prop :=
  (∀ (u : BitVec 2) (f : Frame) (s : State), s.busy = false → s.alloc = true →
    exec (.frame u f) s = .next { s with fbuf := f, pidx := 0, busy := true }) ∧
  (∀ (u : BitVec 2) (f : Frame) (s : State), s.busy = false → s.alloc = false →
    exec (.frame u f) s = .next { s with cmdRsp := some { status := .notInitialized, data := [] } })

/-- FRAME and SUBFRAME outside a session are answered NotInitialized and change nothing (44 R122). -/
def Obligations.DecodeOutsideSessionIsRefused : Prop :=
  ∀ (u : BitVec 2) (f : Frame) (p : PortIdx) (sf : SubFrame) (s : State), s.busy = false → s.alloc = false →
    exec (.frame u f) s = .next { s with cmdRsp := some { status := .notInitialized, data := [] } } ∧
    exec (.subframe p sf) s = .next { s with cmdRsp := some { status := .notInitialized, data := [] } }

/-- SUBFRAME (40 R71, R72, R73): with a session, the decode of one sub-frame into its port and the answer OK; without one, the answer
NotInitialized; nothing else changes. -/
def Obligations.SubframeDecodesIntoItsPort : Prop :=
  (∀ (p : PortIdx) (sf : SubFrame) (s : State), s.busy = false → s.alloc = true →
    ∃ t, exec (.subframe p sf) s = .next t ∧ decodeRel s.trigOffset s.trigSpan sf (s.port p) (t.port p) ∧
      (∀ q, q ≠ p → t.port q = s.port q) ∧
      t = { s with ports := t.ports, cmdRsp := some { status := .ok, data := [] } }) ∧
  (∀ (p : PortIdx) (sf : SubFrame) (s : State), s.busy = false → s.alloc = false →
    exec (.subframe p sf) s = .next { s with cmdRsp := some { status := .notInitialized, data := [] } })

/-- The four extractor rows cut their own block of a frame and route it to their own port (40 R75). That the row also decodes it
there is the model's reading of 00 R2 (log 9). -/
def Obligations.ExtractRowsRouteTheirBlock : Prop :=
  extractsTo .extractP0 0 ∧ extractsTo .extractP1 1 ∧ extractsTo .extractP2 2 ∧ extractsTo .extractP3 3

/-- DSTEP (40 R69): while `busy = 1` the decoder's step decodes the block of `pidx` into that port and moves the sequencer; the
fourth clears `busy` and answers the FRAME with OK. -/
def Obligations.DecodeStepOfALatchedFrame : Prop :=
  ∀ s : State, s.resetAsserted = false → s.mover = some .decoder → s.busy = true →
    ∃ (t : State) (sf : SubFrame), step s = .next t ∧
      (∀ j : Fin 8, s.fbuf.toList[2 + 9 * s.pidx.toNat + j.val]? = some sf[j]) ∧
      decodeRel s.trigOffset s.trigSpan sf (s.port s.pidx) (t.port s.pidx) ∧
      (∀ q, q ≠ s.pidx → t.port q = s.port q) ∧
      t.alloc = s.alloc ∧ t.fbuf = s.fbuf ∧ t.cmdIn = s.cmdIn ∧ t.qryIn = s.qryIn ∧ t.qryRsp = none ∧
      (s.pidx.toNat = 3 → t.busy = false ∧ t.pidx = 0 ∧ t.cmdRsp = some { status := .ok, data := [] }) ∧
      (s.pidx.toNat < 3 → t.busy = true ∧ t.pidx.toNat = s.pidx.toNat + 1 ∧ t.cmdRsp = none)

/-- FRAME as a whole (40 R70): five steps without a query leave the ports as four SUBFRAMEs with the frame's blocks, in the order of
the ports, would, with the channel free and the answer OK. -/
def Obligations.FrameIsFourSubframes : Prop :=
  ∀ (u : BitVec 2) (f : Frame) (rest : List Byte) (s : State), s.alloc = true → s.busy = false → s.qryIn = [] → s.noReset →
    s.cmdIn = encode (.frame u f) ++ rest →
    ∃ t t', Host.Core.run Sys2Proof.core 5 s = .next t ∧
      execAll [.subframe 0 (subOfFrame f 0), .subframe 1 (subOfFrame f 1), .subframe 2 (subOfFrame f 2),
        .subframe 3 (subOfFrame f 3)] s = .next t' ∧
      t.ports = t'.ports ∧ t.busy = false ∧ t.pidx = 0 ∧ t.alloc = true ∧ t.cmdIn = rest ∧
      t.cmdRsp = some { status := .ok, data := [] }

/-- The five ignored bytes of a frame have no effect on any decode (30 R62, 20 R32). -/
def Obligations.IgnoredFrameBytesDoNothing : Prop :=
  ∀ f g : Frame, (∀ j : Fin 37, j.val ≠ 0 → j.val ≠ 1 → j.val ≠ 10 → j.val ≠ 19 → j.val ≠ 28 → f[j] = g[j]) →
    ∀ s : State,
      exec (.extractP0 f) s = exec (.extractP0 g) s ∧ exec (.extractP1 f) s = exec (.extractP1 g) s ∧
      exec (.extractP2 f) s = exec (.extractP2 g) s ∧ exec (.extractP3 f) s = exec (.extractP3 g) s

/-- DecodeActive is its field rows, and the order in which they run has no meaning (40 R74). -/
def Obligations.FieldRowsInAnyOrderDecode : Prop :=
  ∀ (p : PortIdx) (sf : SubFrame) (s : State) (rows : List Instr), ¬ allZero sf → rows.Perm (fieldRows p sf) →
    ∃ t t', execAll rows (s.modifyPort p fun po => po.latchRaw sf) = .next t ∧
      exec (.subframe p sf) { s with alloc := true, busy := false } = .next t' ∧ t.ports = t'.ports

/-- Decoding the same sub-frame to the same port twice in a row is idempotent (20 R39). -/
def Obligations.DecodeTwiceIsDecodeOnce : Prop :=
  ∀ (p : PortIdx) (sf : SubFrame) (s t : State), s.busy = false → s.alloc = true → exec (.subframe p sf) s = .next t →
    exec (.subframe p sf) t = .next t

/-- Ports are independent (40 R77): what a decode leaves in a port depends on that port, the sub-frame and the two static inputs only. -/
def Obligations.PortsAreIndependent : Prop :=
  ∀ (p : PortIdx) (sf : SubFrame) (s s' : State), s.busy = false → s'.busy = false → s.alloc = true → s'.alloc = true →
    s.trigOffset = s'.trigOffset → s.trigSpan = s'.trigSpan → s.port p = s'.port p →
    ∃ t t', exec (.subframe p sf) s = .next t ∧ exec (.subframe p sf) s' = .next t' ∧ t.port p = t'.port p ∧
      (∀ q, q ≠ p → t.port q = s.port q) ∧ (∀ q, q ≠ p → t'.port q = s'.port q)

/-! ## Fields -/

/-- The twelve button rows (41 R80 to R91): the button takes the value of its bit; every other button, the rest of the slot, the other
slots and every other field of the state are unchanged. -/
def Obligations.ButtonRowsWriteTheirBit : Prop :=
  ∀ (n : Button) (p : PortIdx) (v : Byte) (s : State),
    ∃ t, exec (buttonRow n p v) s = .next t ∧ (t.port p).btn.get n = v.getLsbD (buttonBit n) ∧
      (∀ m, m ≠ n → (t.port p).btn.get m = (s.port p).btn.get m) ∧
      (t.port p).stick = (s.port p).stick ∧ (t.port p).trig = (s.port p).trig ∧ (t.port p).raw = (s.port p).raw ∧
      (t.port p).cal = (s.port p).cal ∧ onlyPort p s t

/-- SUB1_UNUSED writes nothing (41 R92; log 10). -/
def Obligations.UnusedBitsRowChangesNothing : Prop :=
  ∀ (p : PortIdx) (v : Byte) (s : State), exec (.sub1Unused p v) s = .next s

/-- Bits 7:4 of sub-frame byte 1 reach no decoded field: two active sub-frames that differ in them only leave slots that differ in
`raw` only (41 R92, 30 R62). -/
def Obligations.UnusedBitsReachNoField : Prop :=
  ∀ (p : PortIdx) (sf sg : SubFrame) (s : State), s.busy = false → s.alloc = true → ¬ allZero sf → ¬ allZero sg →
    (∀ j : Fin 8, j ≠ 1 → sf[j] = sg[j]) → (sf[1] &&& 0x0F#8) = (sg[1] &&& 0x0F#8) →
    ∃ t u, exec (.subframe p sf) s = .next t ∧ exec (.subframe p sg) s = .next u ∧
      sameDecoded (t.port p) (u.port p) ∧ (t.port p).raw = sf ∧ (u.port p).raw = sg

/-- The four stick rows (42 R101 to R105): step count and calibration of their own axis; nothing else changes. -/
def Obligations.StickRowsStepTheirAxis : Prop :=
  ∀ (ax : Axis) (p : PortIdx) (v : Byte) (s : State),
    ∃ t, exec (stickRow ax p v) s = .next t ∧
      axisRel v ((s.port p).cal.get ax) ((t.port p).stick.get ax) ((t.port p).cal.get ax) ∧
      (∀ b, b ≠ ax → (t.port p).stick.get b = (s.port p).stick.get b ∧ (t.port p).cal.get b = (s.port p).cal.get b) ∧
      (t.port p).btn = (s.port p).btn ∧ (t.port p).trig = (s.port p).trig ∧ (t.port p).raw = (s.port p).raw ∧ onlyPort p s t

/-- The two trigger rows (43 R109 to R111): the count of their own trigger, for every value of the two static inputs; nothing else
changes. -/
def Obligations.TriggerRowsWriteTheirCount : Prop :=
  ∀ (tr : Trigger) (p : PortIdx) (v : Byte) (s : State),
    ∃ t, exec (trigRow tr p v) s = .next t ∧ trigRel s.trigOffset s.trigSpan v ((t.port p).trig.get tr) ∧
      (∀ b, b ≠ tr → (t.port p).trig.get b = (s.port p).trig.get b) ∧
      (t.port p).btn = (s.port p).btn ∧ (t.port p).stick = (s.port p).stick ∧ (t.port p).raw = (s.port p).raw ∧
      (t.port p).cal = (s.port p).cal ∧ onlyPort p s t

/-! ## Arithmetic -/

/-- The facts (a) to (g) of 42 R107 on AxisStep, for all bytes; monotonicity is stated from any calibration pair, which contains (f). -/
def Obligations.AxisStepFacts : Prop :=
  (∀ (raw : Byte) (c : Cal),
    (-80 ≤ (axisStep .floor raw c).1 ∧ (axisStep .floor raw c).1 ≤ 80) ∧
    (raw.toNat = 128 → (axisStep .floor raw c).1 = 0) ∧
    (128 < raw.toNat → 0 ≤ (axisStep .floor raw c).1) ∧
    (raw.toNat < 128 → (axisStep .floor raw c).1 ≤ -1 ∧ (axisStep .trunc raw c).1 ≤ 0) ∧
    (c.max.toNat ≤ (axisStep .floor raw c).2.max.toNat ∧ (axisStep .floor raw c).2.min.toNat ≤ c.min.toNat) ∧
    ((axisStep .floor raw c).2.max = c.max ∨ (axisStep .floor raw c).2.max = raw) ∧
    ((axisStep .floor raw c).2.min = c.min ∨ (axisStep .floor raw c).2.min = raw) ∧
    (128 < raw.toNat → raw.toNat ≤ (axisStep .floor raw c).2.max.toNat) ∧
    (raw.toNat < 128 → (axisStep .floor raw c).2.min.toNat ≤ raw.toNat) ∧
    axisStep .floor raw (axisStep .floor raw c).2 = axisStep .floor raw c ∧
    ((axisStep .floor raw c).1 = 80 ↔ (128 < raw.toNat ∧ c.max.toNat ≤ raw.toNat)) ∧
    (raw.toNat < 128 → raw.toNat ≤ c.min.toNat → (axisStep .floor raw c).1 = -80)) ∧
  (∀ (r1 r2 : Byte) (c : Cal), r1.toNat ≤ r2.toNat → (axisStep .floor r1 c).1 ≤ (axisStep .floor r2 c).1) ∧
  (axisStep .floor 1 { max := 208, min := 0 }).1 = -80

/-- A stick byte at the centre reads 0 and changes no calibration, whatever the pair is and under either rounding; any byte moves at
most one of the two bounds (42 R95, R101). -/
def Obligations.AtMostOneBoundMoves : Prop :=
  (∀ (rnd : Config.Rounding) (c : Cal), axisStep rnd 128 c = (0, c)) ∧
  (∀ (rnd : Config.Rounding) (raw : Byte) (c : Cal), (axisStep rnd raw c).2.max = c.max ∨ (axisStep rnd raw c).2.min = c.min)

/-- The integer arithmetic of AxisStep is the source's formula over the rationals: `floor((raw - 128) / stepSize) * (1 / 80)` with
`stepSize = |bound - 128| / 80`, 0 where the step size is 0, clamped to [-1, 1] (42 R97 to R100). -/
def Obligations.StickValueIsTheSourceFormula : Prop :=
  ∀ (raw : Byte) (c : Cal) (stepSize : ℚ),
    stepSize = |(boundAfter raw.toNat c.max.toNat c.min.toNat : ℚ) - 128| / 80 →
    stickValue (BitVec.ofInt 8 (axisStep .floor raw c).1) =
      if stepSize = 0 then 0
      else max (-1) (min 1 ((⌊((raw.toNat : ℚ) - 128) / stepSize⌋ : ℚ) * (1 / 80)))

/-- The integer arithmetic of Trig is the source's formula over the rationals: `clamp((raw - offset) / span, 0, 1)`, for every legal
span (43 R109). -/
def Obligations.TriggerValueIsTheSourceFormula : Prop :=
  ∀ offset span raw : Byte, span ≠ 0#8 →
    trigValue span (BitVec.ofInt 8 (trigCount offset span raw)) =
      max 0 (min 1 (((raw.toNat : ℚ) - (offset.toNat : ℚ)) / (span.toNat : ℚ)))

/-- The corner cases of the trigger family (43 R112), for all legal inputs: 0 up to the offset, the span from offset + span on, one
count per raw count between, and monotone. -/
def Obligations.TriggerCorners : Prop :=
  ∀ offset span : Byte,
    (∀ raw : Byte, raw.toNat ≤ offset.toNat → trigCount offset span raw = 0) ∧
    (∀ raw : Byte, offset.toNat + span.toNat ≤ raw.toNat → trigCount offset span raw = span.toNat) ∧
    (∀ raw : Byte, offset.toNat ≤ raw.toNat → raw.toNat ≤ offset.toNat + span.toNat →
      trigCount offset span raw = (raw.toNat : ℤ) - offset.toNat) ∧
    (∀ r1 r2 : Byte, r1.toNat ≤ r2.toNat → trigCount offset span r1 ≤ trigCount offset span r2)

/-- The two roundings differ exactly where the numerator is negative and the divisor does not divide it, and then by one (42 R97). -/
def Obligations.RoundingsDifferByOne : Prop :=
  ∀ n d : ℤ, 0 < d →
    axisQuotient .trunc n d = axisQuotient .floor n d + (if n < 0 ∧ ¬ d ∣ n then 1 else 0)

/-! ## Queries and statuses -/

/-- GET (44 R117): with a session and an index in 0..3 it answers OK with the record of that slot, whatever `busy` is, and writes
nothing. -/
def Obligations.GetAnswersTheRecord : Prop :=
  ∀ (q1 : Byte) (p : PortIdx) (s : State), s.alloc = true → q1.toInt = (p.toNat : ℤ) →
    exec (.get q1) s = .next { s with qryRsp := some { status := .ok, data := recordOf (s.port p) } }

/-- ISACTIVE (44 R118): with a session and an index in 0..3 it answers OK with 1 if some byte of the slot's last sub-frame is non-zero,
else 0, and writes nothing. -/
def Obligations.IsactiveAnswersActivity : Prop :=
  ∀ (q1 : Byte) (p : PortIdx) (s : State), s.alloc = true → q1.toInt = (p.toNat : ℤ) →
    (¬ allZero (s.port p).raw → exec (.isactive q1) s = .next { s with qryRsp := some { status := .ok, data := [1] } }) ∧
    (allZero (s.port p).raw → exec (.isactive q1) s = .next { s with qryRsp := some { status := .ok, data := [0] } })

/-- A query that fails (44 R117 to R119; 60 R130): NotInitialized without a session whatever the index, else OutOfRange for an index
outside 0..3; all data bytes zero, nothing written. -/
def Obligations.FailingQueriesReturnNoData : Prop :=
  (∀ (q1 : Byte) (s : State), s.alloc = false →
    exec (.get q1) s = .next { s with qryRsp := some { status := .notInitialized, data := List.replicate 25 0 } } ∧
    exec (.isactive q1) s = .next { s with qryRsp := some { status := .notInitialized, data := [0] } }) ∧
  (∀ (q1 : Byte) (s : State), s.alloc = true → (q1.toInt < 0 ∨ 3 < q1.toInt) →
    exec (.get q1) s = .next { s with qryRsp := some { status := .outOfRange, data := List.replicate 25 0 } } ∧
    exec (.isactive q1) s = .next { s with qryRsp := some { status := .outOfRange, data := [0] } })

/-- The record (30 R60): 25 bytes; the buttons in the bits of sub-frame bytes 0 and 1, sticks, triggers, raw, calibration pairs, and
`active` in bit 0 of the last. -/
def Obligations.RecordLayout : Prop :=
  ∀ po : Port, ∃ b0 b1 b24 : Byte,
    recordOf po = [b0, b1, po.stick.lx, po.stick.ly, po.stick.rx, po.stick.ry, po.trig.l, po.trig.r,
      po.raw[0], po.raw[1], po.raw[2], po.raw[3], po.raw[4], po.raw[5], po.raw[6], po.raw[7],
      po.cal.lx.max, po.cal.lx.min, po.cal.ly.max, po.cal.ly.min, po.cal.rx.max, po.cal.rx.min, po.cal.ry.max, po.cal.ry.min,
      b24] ∧
    (∀ n : Button, buttonByteIndex n = 0 → b0.getLsbD (buttonBit n) = po.btn.get n) ∧
    (∀ n : Button, buttonByteIndex n = 1 → b1.getLsbD (buttonBit n) = po.btn.get n) ∧
    (∀ k, 4 ≤ k → b1.getLsbD k = false) ∧
    (b24.getLsbD 0 = true ↔ ¬ allZero po.raw) ∧ (∀ k, 1 ≤ k → b24.getLsbD k = false)

/-- After an active sub-frame the record's button bytes are the sub-frame's, less the unused bits (30 R60). -/
def Obligations.RecordEchoesTheButtonBytes : Prop :=
  ∀ (p : PortIdx) (sf : SubFrame) (s t : State), s.busy = false → s.alloc = true → ¬ allZero sf →
    exec (.subframe p sf) s = .next t →
    (recordOf (t.port p))[0]? = some sf[0] ∧ (recordOf (t.port p))[1]? = some (sf[1] &&& 0x0F#8)

/-- The four reserved command rows answer BadCommand and change nothing, with or without a session (30 R63, 60 R129, 44 R123). -/
def Obligations.ReservedCommandRowsAnswerBadCommand : Prop :=
  ∀ (h : Byte) (s : State), s.busy = false →
    ∃ t, t = { s with cmdRsp := some { status := .badCommand, data := [] } } ∧
      exec (.cmdReservedOp h) s = .next t ∧ exec (.cmdReservedB3 h) s = .next t ∧
      exec (.cmdReservedB4 h) s = .next t ∧ exec (.cmdReservedB5 h) s = .next t

/-- The seven reserved query rows answer BadCommand at once in every state and change nothing (30 R63, 60 R129, 44 R123). That the
response has no data byte is the model's choice (log 14). -/
def Obligations.ReservedQueryRowsAnswerBadCommand : Prop :=
  ∀ (q0 q1 : Byte) (s : State), ∃ t, t = { s with qryRsp := some { status := .badCommand, data := [] } } ∧
    exec (.qryReservedB1 q0 q1) s = .next t ∧ exec (.qryReservedB2 q0 q1) s = .next t ∧
    exec (.qryReservedB3 q0 q1) s = .next t ∧ exec (.qryReservedB4 q0 q1) s = .next t ∧
    exec (.qryReservedB5 q0 q1) s = .next t ∧ exec (.qryReservedB6 q0 q1) s = .next t ∧
    exec (.qryReservedB7 q0 q1) s = .next t

/-- The four status rows issue the codes of 60 R124. -/
def Obligations.StatusRowsIssueTheirCode : Prop :=
  issues .statusOk 0x00 ∧ issues .statusNotInitialized 0x01 ∧ issues .statusOutOfRange 0x02 ∧ issues .statusBadCommand 0x03

/-- The raw latch and `active` (10 R21, 40 R73): after a sub-frame is decoded to a port, all zero or not, `raw` is that sub-frame and
`active` says whether it is not all zero. -/
def Obligations.ActiveFollowsTheLastSubframe : Prop :=
  ∀ (p : PortIdx) (sf : SubFrame) (s t : State), s.busy = false → s.alloc = true → exec (.subframe p sf) s = .next t →
    (t.port p).raw = sf ∧ ((t.port p).active = true ↔ ∃ j : Fin 8, sf[j] ≠ 0#8)

/-! ## Invariants and whole-machine rules -/

/-- The invariant of 10 R30 holds after reset. -/
def Obligations.ResetHasTheInvariant : Prop := State.reset.Inv

/-- Every step keeps the invariant of 10 R30: calibration, stick and trigger ranges, `pidx` 0 at rest, no frame pending outside a
session. -/
def Obligations.EveryStepKeepsTheInvariant : Prop :=
  ∀ s t : State, s.Inv → step s = .next t → t.Inv

/-- The bounds never re-tighten (10 R20, R29; 42 R106): a step that narrows a calibration pair is hardware reset or the acceptance of
START, and leaves the start values. -/
def Obligations.OnlyStartNarrowsCalibration : Prop :=
  ∀ (s t : State) (p : PortIdx), step s = .next t →
    calWidens (s.port p) (t.port p) ∨
    ((t.port p).isStart ∧
      (s.resetAsserted = true ∨
        (s.busy = false ∧ s.mover = some .decoder ∧ ∃ u rest, decode .command s.cmdIn = .ok (.start u, rest))))

/-- A step of the consumer writes nothing: the spec's state, the command channel and the static inputs stay as they are (20 R39, R45;
44 R117, R118). -/
def Obligations.QueriesWriteNothing : Prop :=
  ∀ s t : State, s.resetAsserted = false → s.mover = some .consumer → step s = .next t → sameDecoderView s t ∧ t.cmdRsp = none

/-- No step writes the two static inputs (10 R26). -/
def Obligations.NoStepWritesTheInputs : Prop :=
  ∀ s t : State, step s = .next t → t.trigOffset = s.trigOffset ∧ t.trigSpan = s.trigSpan

/-- The latched frame is stable (20 R43): only hardware reset and the acceptance of a FRAME in a session with the channel free change
`fbuf`. -/
def Obligations.LatchedFrameIsStable : Prop :=
  ∀ s t : State, step s = .next t → s.resetAsserted = false →
    t.fbuf = s.fbuf ∨
    (s.busy = false ∧ s.alloc = true ∧ ∃ u rest, decode .command s.cmdIn = .ok (.frame u t.fbuf, rest))

/-- A pending frame ends (40 R67, 70 R151): whatever the schedule and however many queries are presented, within the decode steps left
plus the queries presented the frame is answered with OK and the channel is free, with no command byte taken meanwhile. -/
def Obligations.PendingFrameEnds : Prop :=
  ∀ s : State, s.busy = true → s.noReset →
    ∃ (n : Nat) (t : State), n ≤ (4 - s.pidx.toNat) + s.qryIn.length ∧ Host.Core.run Sys2Proof.core n s = .next t ∧
      t.busy = false ∧ t.pidx = 0 ∧ t.cmdRsp = some { status := .ok, data := [] } ∧ t.cmdIn = s.cmdIn

/-- The end of a run (70 R153): two runs from the same decoder state and the same commands, whatever queries are presented and however
the steps interleave, end in the same state of the spec once every request has been answered. -/
def Obligations.FinalStateIgnoresQueriesAndOrder : Prop :=
  ∀ (s s' t t' : State) (m n : Nat), sameDecoderView s s' → s.noReset → s'.noReset →
    Host.Core.run Sys2Proof.core m s = .next t → Host.Core.run Sys2Proof.core n s' = .next t' →
    t.quiescent → t'.quiescent → sameSpecState t t'
end

