-- ==== Sys2Proof/Laws/State.lean ====
section
/-! SUPPORT. One lemma per field per update of the state, each true by rfl, and the registers of a slot after a write. -/

namespace Sys2Proof.Machine

@[simp] theorem State.modifyPort_alloc (s : State) (p : PortIdx) (upd : Port → Port) : (s.modifyPort p upd).alloc = s.alloc := rfl
@[simp] theorem State.modifyPort_busy (s : State) (p : PortIdx) (upd : Port → Port) : (s.modifyPort p upd).busy = s.busy := rfl
@[simp] theorem State.modifyPort_pidx (s : State) (p : PortIdx) (upd : Port → Port) : (s.modifyPort p upd).pidx = s.pidx := rfl
@[simp] theorem State.modifyPort_fbuf (s : State) (p : PortIdx) (upd : Port → Port) : (s.modifyPort p upd).fbuf = s.fbuf := rfl
@[simp] theorem State.modifyPort_ports (s : State) (p : PortIdx) (upd : Port → Port) : (s.modifyPort p upd).ports = s.ports.set p.toNat (upd (s.port p)) p.isLt := rfl
@[simp] theorem State.modifyPort_trigOffset (s : State) (p : PortIdx) (upd : Port → Port) : (s.modifyPort p upd).trigOffset = s.trigOffset := rfl
@[simp] theorem State.modifyPort_trigSpan (s : State) (p : PortIdx) (upd : Port → Port) : (s.modifyPort p upd).trigSpan = s.trigSpan := rfl
@[simp] theorem State.modifyPort_cmdIn (s : State) (p : PortIdx) (upd : Port → Port) : (s.modifyPort p upd).cmdIn = s.cmdIn := rfl
@[simp] theorem State.modifyPort_qryIn (s : State) (p : PortIdx) (upd : Port → Port) : (s.modifyPort p upd).qryIn = s.qryIn := rfl
@[simp] theorem State.modifyPort_turns (s : State) (p : PortIdx) (upd : Port → Port) : (s.modifyPort p upd).turns = s.turns := rfl
@[simp] theorem State.modifyPort_choice (s : State) (p : PortIdx) (upd : Port → Port) : (s.modifyPort p upd).choice = s.choice := rfl
@[simp] theorem State.modifyPort_cmdRsp (s : State) (p : PortIdx) (upd : Port → Port) : (s.modifyPort p upd).cmdRsp = s.cmdRsp := rfl
@[simp] theorem State.modifyPort_qryRsp (s : State) (p : PortIdx) (upd : Port → Port) : (s.modifyPort p upd).qryRsp = s.qryRsp := rfl

@[simp] theorem State.respond_command_alloc (s : State) (st : Status) (data : List Byte) : (s.respond .command st data).alloc = s.alloc := rfl
@[simp] theorem State.respond_command_busy (s : State) (st : Status) (data : List Byte) : (s.respond .command st data).busy = s.busy := rfl
@[simp] theorem State.respond_command_pidx (s : State) (st : Status) (data : List Byte) : (s.respond .command st data).pidx = s.pidx := rfl
@[simp] theorem State.respond_command_fbuf (s : State) (st : Status) (data : List Byte) : (s.respond .command st data).fbuf = s.fbuf := rfl
@[simp] theorem State.respond_command_ports (s : State) (st : Status) (data : List Byte) : (s.respond .command st data).ports = s.ports := rfl
@[simp] theorem State.respond_command_trigOffset (s : State) (st : Status) (data : List Byte) : (s.respond .command st data).trigOffset = s.trigOffset := rfl
@[simp] theorem State.respond_command_trigSpan (s : State) (st : Status) (data : List Byte) : (s.respond .command st data).trigSpan = s.trigSpan := rfl
@[simp] theorem State.respond_command_cmdIn (s : State) (st : Status) (data : List Byte) : (s.respond .command st data).cmdIn = s.cmdIn := rfl
@[simp] theorem State.respond_command_qryIn (s : State) (st : Status) (data : List Byte) : (s.respond .command st data).qryIn = s.qryIn := rfl
@[simp] theorem State.respond_command_turns (s : State) (st : Status) (data : List Byte) : (s.respond .command st data).turns = s.turns := rfl
@[simp] theorem State.respond_command_choice (s : State) (st : Status) (data : List Byte) : (s.respond .command st data).choice = s.choice := rfl
@[simp] theorem State.respond_command_cmdRsp (s : State) (st : Status) (data : List Byte) : (s.respond .command st data).cmdRsp = some { status := st, data := data } := rfl
@[simp] theorem State.respond_command_qryRsp (s : State) (st : Status) (data : List Byte) : (s.respond .command st data).qryRsp = s.qryRsp := rfl

@[simp] theorem State.respond_query_alloc (s : State) (st : Status) (data : List Byte) : (s.respond .query st data).alloc = s.alloc := rfl
@[simp] theorem State.respond_query_busy (s : State) (st : Status) (data : List Byte) : (s.respond .query st data).busy = s.busy := rfl
@[simp] theorem State.respond_query_pidx (s : State) (st : Status) (data : List Byte) : (s.respond .query st data).pidx = s.pidx := rfl
@[simp] theorem State.respond_query_fbuf (s : State) (st : Status) (data : List Byte) : (s.respond .query st data).fbuf = s.fbuf := rfl
@[simp] theorem State.respond_query_ports (s : State) (st : Status) (data : List Byte) : (s.respond .query st data).ports = s.ports := rfl
@[simp] theorem State.respond_query_trigOffset (s : State) (st : Status) (data : List Byte) : (s.respond .query st data).trigOffset = s.trigOffset := rfl
@[simp] theorem State.respond_query_trigSpan (s : State) (st : Status) (data : List Byte) : (s.respond .query st data).trigSpan = s.trigSpan := rfl
@[simp] theorem State.respond_query_cmdIn (s : State) (st : Status) (data : List Byte) : (s.respond .query st data).cmdIn = s.cmdIn := rfl
@[simp] theorem State.respond_query_qryIn (s : State) (st : Status) (data : List Byte) : (s.respond .query st data).qryIn = s.qryIn := rfl
@[simp] theorem State.respond_query_turns (s : State) (st : Status) (data : List Byte) : (s.respond .query st data).turns = s.turns := rfl
@[simp] theorem State.respond_query_choice (s : State) (st : Status) (data : List Byte) : (s.respond .query st data).choice = s.choice := rfl
@[simp] theorem State.respond_query_cmdRsp (s : State) (st : Status) (data : List Byte) : (s.respond .query st data).cmdRsp = s.cmdRsp := rfl
@[simp] theorem State.respond_query_qryRsp (s : State) (st : Status) (data : List Byte) : (s.respond .query st data).qryRsp = some { status := st, data := data } := rfl

@[simp] theorem State.startPorts_alloc (s : State) : (s.startPorts).alloc = true := rfl
@[simp] theorem State.startPorts_busy (s : State) : (s.startPorts).busy = s.busy := rfl
@[simp] theorem State.startPorts_pidx (s : State) : (s.startPorts).pidx = s.pidx := rfl
@[simp] theorem State.startPorts_fbuf (s : State) : (s.startPorts).fbuf = s.fbuf := rfl
@[simp] theorem State.startPorts_ports (s : State) : (s.startPorts).ports = Port.initAll := rfl
@[simp] theorem State.startPorts_trigOffset (s : State) : (s.startPorts).trigOffset = s.trigOffset := rfl
@[simp] theorem State.startPorts_trigSpan (s : State) : (s.startPorts).trigSpan = s.trigSpan := rfl
@[simp] theorem State.startPorts_cmdIn (s : State) : (s.startPorts).cmdIn = s.cmdIn := rfl
@[simp] theorem State.startPorts_qryIn (s : State) : (s.startPorts).qryIn = s.qryIn := rfl
@[simp] theorem State.startPorts_turns (s : State) : (s.startPorts).turns = s.turns := rfl
@[simp] theorem State.startPorts_choice (s : State) : (s.startPorts).choice = s.choice := rfl
@[simp] theorem State.startPorts_cmdRsp (s : State) : (s.startPorts).cmdRsp = s.cmdRsp := rfl
@[simp] theorem State.startPorts_qryRsp (s : State) : (s.startPorts).qryRsp = s.qryRsp := rfl

@[simp] theorem State.latchFrame_alloc (s : State) (f : Frame) : (s.latchFrame f).alloc = s.alloc := rfl
@[simp] theorem State.latchFrame_busy (s : State) (f : Frame) : (s.latchFrame f).busy = true := rfl
@[simp] theorem State.latchFrame_pidx (s : State) (f : Frame) : (s.latchFrame f).pidx = 0 := rfl
@[simp] theorem State.latchFrame_fbuf (s : State) (f : Frame) : (s.latchFrame f).fbuf = f := rfl
@[simp] theorem State.latchFrame_ports (s : State) (f : Frame) : (s.latchFrame f).ports = s.ports := rfl
@[simp] theorem State.latchFrame_trigOffset (s : State) (f : Frame) : (s.latchFrame f).trigOffset = s.trigOffset := rfl
@[simp] theorem State.latchFrame_trigSpan (s : State) (f : Frame) : (s.latchFrame f).trigSpan = s.trigSpan := rfl
@[simp] theorem State.latchFrame_cmdIn (s : State) (f : Frame) : (s.latchFrame f).cmdIn = s.cmdIn := rfl
@[simp] theorem State.latchFrame_qryIn (s : State) (f : Frame) : (s.latchFrame f).qryIn = s.qryIn := rfl
@[simp] theorem State.latchFrame_turns (s : State) (f : Frame) : (s.latchFrame f).turns = s.turns := rfl
@[simp] theorem State.latchFrame_choice (s : State) (f : Frame) : (s.latchFrame f).choice = s.choice := rfl
@[simp] theorem State.latchFrame_cmdRsp (s : State) (f : Frame) : (s.latchFrame f).cmdRsp = s.cmdRsp := rfl
@[simp] theorem State.latchFrame_qryRsp (s : State) (f : Frame) : (s.latchFrame f).qryRsp = s.qryRsp := rfl

@[simp] theorem State.beginStep_alloc (s : State) : (s.beginStep).alloc = s.alloc := rfl
@[simp] theorem State.beginStep_busy (s : State) : (s.beginStep).busy = s.busy := rfl
@[simp] theorem State.beginStep_pidx (s : State) : (s.beginStep).pidx = s.pidx := rfl
@[simp] theorem State.beginStep_fbuf (s : State) : (s.beginStep).fbuf = s.fbuf := rfl
@[simp] theorem State.beginStep_ports (s : State) : (s.beginStep).ports = s.ports := rfl
@[simp] theorem State.beginStep_trigOffset (s : State) : (s.beginStep).trigOffset = s.trigOffset := rfl
@[simp] theorem State.beginStep_trigSpan (s : State) : (s.beginStep).trigSpan = s.trigSpan := rfl
@[simp] theorem State.beginStep_cmdIn (s : State) : (s.beginStep).cmdIn = s.cmdIn := rfl
@[simp] theorem State.beginStep_qryIn (s : State) : (s.beginStep).qryIn = s.qryIn := rfl
@[simp] theorem State.beginStep_turns (s : State) : (s.beginStep).turns = s.turns.tail := rfl
@[simp] theorem State.beginStep_choice (s : State) : (s.beginStep).choice = s.choice + 1 := rfl
@[simp] theorem State.beginStep_cmdRsp (s : State) : (s.beginStep).cmdRsp = none := rfl
@[simp] theorem State.beginStep_qryRsp (s : State) : (s.beginStep).qryRsp = none := rfl

@[simp] theorem State.hardReset_alloc (s : State) : (s.hardReset).alloc = false := rfl
@[simp] theorem State.hardReset_busy (s : State) : (s.hardReset).busy = false := rfl
@[simp] theorem State.hardReset_pidx (s : State) : (s.hardReset).pidx = 0 := rfl
@[simp] theorem State.hardReset_fbuf (s : State) : (s.hardReset).fbuf = Vector.replicate 37 0 := rfl
@[simp] theorem State.hardReset_ports (s : State) : (s.hardReset).ports = Port.initAll := rfl
@[simp] theorem State.hardReset_trigOffset (s : State) : (s.hardReset).trigOffset = s.trigOffset := rfl
@[simp] theorem State.hardReset_trigSpan (s : State) : (s.hardReset).trigSpan = s.trigSpan := rfl
@[simp] theorem State.hardReset_cmdIn (s : State) : (s.hardReset).cmdIn = s.cmdIn := rfl
@[simp] theorem State.hardReset_qryIn (s : State) : (s.hardReset).qryIn = s.qryIn := rfl
@[simp] theorem State.hardReset_turns (s : State) : (s.hardReset).turns = s.turns.tail := rfl
@[simp] theorem State.hardReset_choice (s : State) : (s.hardReset).choice = s.choice + 1 := rfl
@[simp] theorem State.hardReset_cmdRsp (s : State) : (s.hardReset).cmdRsp = none := rfl
@[simp] theorem State.hardReset_qryRsp (s : State) : (s.hardReset).qryRsp = none := rfl

@[simp] theorem State.decodePort_alloc (s : State) (p : PortIdx) (sf : SubFrame) : (s.decodePort p sf).alloc = s.alloc := rfl
@[simp] theorem State.decodePort_busy (s : State) (p : PortIdx) (sf : SubFrame) : (s.decodePort p sf).busy = s.busy := rfl
@[simp] theorem State.decodePort_pidx (s : State) (p : PortIdx) (sf : SubFrame) : (s.decodePort p sf).pidx = s.pidx := rfl
@[simp] theorem State.decodePort_fbuf (s : State) (p : PortIdx) (sf : SubFrame) : (s.decodePort p sf).fbuf = s.fbuf := rfl
@[simp] theorem State.decodePort_ports (s : State) (p : PortIdx) (sf : SubFrame) : (s.decodePort p sf).ports = s.ports.set p.toNat ((s.port p).decodeSub s.trigOffset s.trigSpan sf) p.isLt := rfl
@[simp] theorem State.decodePort_trigOffset (s : State) (p : PortIdx) (sf : SubFrame) : (s.decodePort p sf).trigOffset = s.trigOffset := rfl
@[simp] theorem State.decodePort_trigSpan (s : State) (p : PortIdx) (sf : SubFrame) : (s.decodePort p sf).trigSpan = s.trigSpan := rfl
@[simp] theorem State.decodePort_cmdIn (s : State) (p : PortIdx) (sf : SubFrame) : (s.decodePort p sf).cmdIn = s.cmdIn := rfl
@[simp] theorem State.decodePort_qryIn (s : State) (p : PortIdx) (sf : SubFrame) : (s.decodePort p sf).qryIn = s.qryIn := rfl
@[simp] theorem State.decodePort_turns (s : State) (p : PortIdx) (sf : SubFrame) : (s.decodePort p sf).turns = s.turns := rfl
@[simp] theorem State.decodePort_choice (s : State) (p : PortIdx) (sf : SubFrame) : (s.decodePort p sf).choice = s.choice := rfl
@[simp] theorem State.decodePort_cmdRsp (s : State) (p : PortIdx) (sf : SubFrame) : (s.decodePort p sf).cmdRsp = s.cmdRsp := rfl
@[simp] theorem State.decodePort_qryRsp (s : State) (p : PortIdx) (sf : SubFrame) : (s.decodePort p sf).qryRsp = s.qryRsp := rfl

@[simp] theorem State.consume_command_alloc (s : State) (rest : List Byte) : (s.consume .command rest).alloc = s.alloc := rfl
@[simp] theorem State.consume_command_busy (s : State) (rest : List Byte) : (s.consume .command rest).busy = s.busy := rfl
@[simp] theorem State.consume_command_pidx (s : State) (rest : List Byte) : (s.consume .command rest).pidx = s.pidx := rfl
@[simp] theorem State.consume_command_fbuf (s : State) (rest : List Byte) : (s.consume .command rest).fbuf = s.fbuf := rfl
@[simp] theorem State.consume_command_ports (s : State) (rest : List Byte) : (s.consume .command rest).ports = s.ports := rfl
@[simp] theorem State.consume_command_trigOffset (s : State) (rest : List Byte) : (s.consume .command rest).trigOffset = s.trigOffset := rfl
@[simp] theorem State.consume_command_trigSpan (s : State) (rest : List Byte) : (s.consume .command rest).trigSpan = s.trigSpan := rfl
@[simp] theorem State.consume_command_cmdIn (s : State) (rest : List Byte) : (s.consume .command rest).cmdIn = rest := rfl
@[simp] theorem State.consume_command_qryIn (s : State) (rest : List Byte) : (s.consume .command rest).qryIn = s.qryIn := rfl
@[simp] theorem State.consume_command_turns (s : State) (rest : List Byte) : (s.consume .command rest).turns = s.turns := rfl
@[simp] theorem State.consume_command_choice (s : State) (rest : List Byte) : (s.consume .command rest).choice = s.choice := rfl
@[simp] theorem State.consume_command_cmdRsp (s : State) (rest : List Byte) : (s.consume .command rest).cmdRsp = s.cmdRsp := rfl
@[simp] theorem State.consume_command_qryRsp (s : State) (rest : List Byte) : (s.consume .command rest).qryRsp = s.qryRsp := rfl

@[simp] theorem State.consume_query_alloc (s : State) (rest : List Byte) : (s.consume .query rest).alloc = s.alloc := rfl
@[simp] theorem State.consume_query_busy (s : State) (rest : List Byte) : (s.consume .query rest).busy = s.busy := rfl
@[simp] theorem State.consume_query_pidx (s : State) (rest : List Byte) : (s.consume .query rest).pidx = s.pidx := rfl
@[simp] theorem State.consume_query_fbuf (s : State) (rest : List Byte) : (s.consume .query rest).fbuf = s.fbuf := rfl
@[simp] theorem State.consume_query_ports (s : State) (rest : List Byte) : (s.consume .query rest).ports = s.ports := rfl
@[simp] theorem State.consume_query_trigOffset (s : State) (rest : List Byte) : (s.consume .query rest).trigOffset = s.trigOffset := rfl
@[simp] theorem State.consume_query_trigSpan (s : State) (rest : List Byte) : (s.consume .query rest).trigSpan = s.trigSpan := rfl
@[simp] theorem State.consume_query_cmdIn (s : State) (rest : List Byte) : (s.consume .query rest).cmdIn = s.cmdIn := rfl
@[simp] theorem State.consume_query_qryIn (s : State) (rest : List Byte) : (s.consume .query rest).qryIn = s.qryIn.tail := rfl
@[simp] theorem State.consume_query_turns (s : State) (rest : List Byte) : (s.consume .query rest).turns = s.turns := rfl
@[simp] theorem State.consume_query_choice (s : State) (rest : List Byte) : (s.consume .query rest).choice = s.choice := rfl
@[simp] theorem State.consume_query_cmdRsp (s : State) (rest : List Byte) : (s.consume .query rest).cmdRsp = s.cmdRsp := rfl
@[simp] theorem State.consume_query_qryRsp (s : State) (rest : List Byte) : (s.consume .query rest).qryRsp = s.qryRsp := rfl

@[simp] theorem State.consume_frameBlock_alloc (s : State) (p : PortIdx) (rest : List Byte) : (s.consume (.frameBlock p) rest).alloc = s.alloc := rfl
@[simp] theorem State.consume_frameBlock_busy (s : State) (p : PortIdx) (rest : List Byte) : (s.consume (.frameBlock p) rest).busy = s.busy := rfl
@[simp] theorem State.consume_frameBlock_pidx (s : State) (p : PortIdx) (rest : List Byte) : (s.consume (.frameBlock p) rest).pidx = s.pidx := rfl
@[simp] theorem State.consume_frameBlock_fbuf (s : State) (p : PortIdx) (rest : List Byte) : (s.consume (.frameBlock p) rest).fbuf = s.fbuf := rfl
@[simp] theorem State.consume_frameBlock_ports (s : State) (p : PortIdx) (rest : List Byte) : (s.consume (.frameBlock p) rest).ports = s.ports := rfl
@[simp] theorem State.consume_frameBlock_trigOffset (s : State) (p : PortIdx) (rest : List Byte) : (s.consume (.frameBlock p) rest).trigOffset = s.trigOffset := rfl
@[simp] theorem State.consume_frameBlock_trigSpan (s : State) (p : PortIdx) (rest : List Byte) : (s.consume (.frameBlock p) rest).trigSpan = s.trigSpan := rfl
@[simp] theorem State.consume_frameBlock_cmdIn (s : State) (p : PortIdx) (rest : List Byte) : (s.consume (.frameBlock p) rest).cmdIn = s.cmdIn := rfl
@[simp] theorem State.consume_frameBlock_qryIn (s : State) (p : PortIdx) (rest : List Byte) : (s.consume (.frameBlock p) rest).qryIn = s.qryIn := rfl
@[simp] theorem State.consume_frameBlock_turns (s : State) (p : PortIdx) (rest : List Byte) : (s.consume (.frameBlock p) rest).turns = s.turns := rfl
@[simp] theorem State.consume_frameBlock_choice (s : State) (p : PortIdx) (rest : List Byte) : (s.consume (.frameBlock p) rest).choice = s.choice := rfl
@[simp] theorem State.consume_frameBlock_cmdRsp (s : State) (p : PortIdx) (rest : List Byte) : (s.consume (.frameBlock p) rest).cmdRsp = s.cmdRsp := rfl
@[simp] theorem State.consume_frameBlock_qryRsp (s : State) (p : PortIdx) (rest : List Byte) : (s.consume (.frameBlock p) rest).qryRsp = s.qryRsp := rfl

theorem State.port_of_ports (s : State) (p : PortIdx) : s.port p = s.ports[p.toNat]'p.isLt := rfl

/-- Equal slots, equal port files. -/
theorem State.port_congr (s t : State) (h : t.ports = s.ports) (p : PortIdx) : t.port p = s.port p := by
  unfold State.port
  simp only [h]

/-- A slot after a write, the written one and the others. -/
theorem State.modifyPort_port (s : State) (p q : PortIdx) (upd : Port → Port) :
    (s.modifyPort p upd).port q = if q = p then upd (s.port p) else s.port q := by
  unfold State.port
  simp only [State.modifyPort_ports, Vector.getElem_set]
  by_cases h : q = p
  · subst h
    simp [State.port]
  · have hne : p.toNat ≠ q.toNat := fun e => h (BitVec.eq_of_toNat_eq e.symm)
    simp [h, hne]

@[simp] theorem State.modifyPort_port_self (s : State) (p : PortIdx) (upd : Port → Port) :
    (s.modifyPort p upd).port p = upd (s.port p) := by simp [State.modifyPort_port]

theorem State.modifyPort_port_ne (s : State) (p q : PortIdx) (upd : Port → Port) (h : q ≠ p) :
    (s.modifyPort p upd).port q = s.port q := by simp [State.modifyPort_port, h]

@[simp] theorem State.decodePort_port_self (s : State) (p : PortIdx) (sf : SubFrame) :
    (s.decodePort p sf).port p = (s.port p).decodeSub s.trigOffset s.trigSpan sf :=
  s.modifyPort_port_self p _

theorem State.decodePort_port_ne (s : State) (p q : PortIdx) (sf : SubFrame) (h : q ≠ p) :
    (s.decodePort p sf).port q = s.port q :=
  s.modifyPort_port_ne p q _ h

/-- A port file is its four slots. -/
theorem ports_ext (v w : Vector Port 4) (h : ∀ p : PortIdx, v[p.toNat]'p.isLt = w[p.toNat]'p.isLt) : v = w := by
  apply Vector.ext
  intro i hi
  have := h (BitVec.ofNat 2 i)
  simpa [BitVec.toNat_ofNat, Nat.mod_eq_of_lt hi] using this

/-- Every slot of the start file is the start slot. -/
@[simp] theorem initAll_getElem (p : PortIdx) : Port.initAll[p.toNat]'p.isLt = Port.init := by
  revert p
  decide

@[simp] theorem State.startPorts_port (s : State) (p : PortIdx) : s.startPorts.port p = Port.init := initAll_getElem p

@[simp] theorem State.hardReset_port (s : State) (p : PortIdx) : s.hardReset.port p = Port.init := initAll_getElem p

@[simp] theorem State.reset_port (p : PortIdx) : State.reset.port p = Port.init := initAll_getElem p

@[simp] theorem State.respond_port (s : State) (ch : Channel) (st : Status) (data : List Byte) (p : PortIdx) :
    (s.respond ch st data).port p = s.port p := by cases ch <;> rfl

@[simp] theorem State.latchFrame_port (s : State) (f : Frame) (p : PortIdx) : (s.latchFrame f).port p = s.port p := rfl

@[simp] theorem State.beginStep_port (s : State) (p : PortIdx) : s.beginStep.port p = s.port p := rfl

@[simp] theorem State.consume_port (s : State) (pl : Place) (rest : List Byte) (p : PortIdx) :
    (s.consume pl rest).port p = s.port p := by cases pl <;> rfl

@[simp] theorem Buttons.get_set_self (bs : Buttons) (n : Button) (v : Bool) : (bs.set n v).get n = v := by cases n <;> rfl

theorem Buttons.get_set_ne (bs : Buttons) (m n : Button) (v : Bool) (h : m ≠ n) : (bs.set n v).get m = bs.get m := by
  cases n <;> cases m <;> first | rfl | exact absurd rfl h

@[simp] theorem Sticks.get_set_self (ss : Sticks) (ax : Axis) (v : Byte) : (ss.set ax v).get ax = v := by cases ax <;> rfl

theorem Sticks.get_set_ne (ss : Sticks) (a b : Axis) (v : Byte) (h : a ≠ b) : (ss.set b v).get a = ss.get a := by
  cases b <;> cases a <;> first | rfl | exact absurd rfl h

@[simp] theorem Cals.get_set_self (cs : Cals) (ax : Axis) (v : Cal) : (cs.set ax v).get ax = v := by cases ax <;> rfl

theorem Cals.get_set_ne (cs : Cals) (a b : Axis) (v : Cal) (h : a ≠ b) : (cs.set b v).get a = cs.get a := by
  cases b <;> cases a <;> first | rfl | exact absurd rfl h

@[simp] theorem Triggers.get_set_self (ts : Triggers) (t : Trigger) (v : Byte) : (ts.set t v).get t = v := by cases t <;> rfl

theorem Triggers.get_set_ne (ts : Triggers) (a b : Trigger) (v : Byte) (h : a ≠ b) : (ts.set b v).get a = ts.get a := by
  cases b <;> cases a <;> first | rfl | exact absurd rfl h

@[simp] theorem Port.setButton_btn (po : Port) (n : Button) (v : Bool) : (po.setButton n v).btn = po.btn.set n v := rfl
@[simp] theorem Port.setButton_stick (po : Port) (n : Button) (v : Bool) : (po.setButton n v).stick = po.stick := rfl
@[simp] theorem Port.setButton_trig (po : Port) (n : Button) (v : Bool) : (po.setButton n v).trig = po.trig := rfl
@[simp] theorem Port.setButton_raw (po : Port) (n : Button) (v : Bool) : (po.setButton n v).raw = po.raw := rfl
@[simp] theorem Port.setButton_cal (po : Port) (n : Button) (v : Bool) : (po.setButton n v).cal = po.cal := rfl

@[simp] theorem Port.stepAxis_btn (po : Port) (ax : Axis) (v : Byte) : (po.stepAxis ax v).btn = po.btn := rfl
@[simp] theorem Port.stepAxis_stick (po : Port) (ax : Axis) (v : Byte) : (po.stepAxis ax v).stick = po.stick.set ax (BitVec.ofInt 8 (axisStep Config.stickRound v (po.cal.get ax)).1) := rfl
@[simp] theorem Port.stepAxis_trig (po : Port) (ax : Axis) (v : Byte) : (po.stepAxis ax v).trig = po.trig := rfl
@[simp] theorem Port.stepAxis_raw (po : Port) (ax : Axis) (v : Byte) : (po.stepAxis ax v).raw = po.raw := rfl
@[simp] theorem Port.stepAxis_cal (po : Port) (ax : Axis) (v : Byte) : (po.stepAxis ax v).cal = po.cal.set ax (axisStep Config.stickRound v (po.cal.get ax)).2 := rfl

@[simp] theorem Port.setTrigger_btn (po : Port) (o sp : Byte) (t : Trigger) (v : Byte) : (po.setTrigger o sp t v).btn = po.btn := rfl
@[simp] theorem Port.setTrigger_stick (po : Port) (o sp : Byte) (t : Trigger) (v : Byte) : (po.setTrigger o sp t v).stick = po.stick := rfl
@[simp] theorem Port.setTrigger_trig (po : Port) (o sp : Byte) (t : Trigger) (v : Byte) : (po.setTrigger o sp t v).trig = po.trig.set t (BitVec.ofInt 8 (trigCount o sp v)) := rfl
@[simp] theorem Port.setTrigger_raw (po : Port) (o sp : Byte) (t : Trigger) (v : Byte) : (po.setTrigger o sp t v).raw = po.raw := rfl
@[simp] theorem Port.setTrigger_cal (po : Port) (o sp : Byte) (t : Trigger) (v : Byte) : (po.setTrigger o sp t v).cal = po.cal := rfl

@[simp] theorem Port.latchRaw_btn (po : Port) (sf : SubFrame) : (po.latchRaw sf).btn = po.btn := rfl
@[simp] theorem Port.latchRaw_stick (po : Port) (sf : SubFrame) : (po.latchRaw sf).stick = po.stick := rfl
@[simp] theorem Port.latchRaw_trig (po : Port) (sf : SubFrame) : (po.latchRaw sf).trig = po.trig := rfl
@[simp] theorem Port.latchRaw_raw (po : Port) (sf : SubFrame) : (po.latchRaw sf).raw = sf := rfl
@[simp] theorem Port.latchRaw_cal (po : Port) (sf : SubFrame) : (po.latchRaw sf).cal = po.cal := rfl

end Sys2Proof.Machine
end

