-- ==== Sys2Proof/Laws/Decode.lean ====
section
/-! SUPPORT. What AxisStep, Trig and DECODE do to a slot, said once in the integer relations of Safety.lean. -/

namespace Sys2Proof.Machine

theorem clamp_eq (v lo hi : Int) (h : lo ≤ hi) : clamp v lo hi = max lo (min v hi) := by
  unfold clamp
  split
  · omega
  · split <;> omega

theorem axisMax_toNat (raw cmax : Byte) : (axisMax raw cmax).toNat = maxAfter raw.toNat cmax.toNat := by
  unfold axisMax maxAfter
  simp only [Config.center]
  split
  · split <;> omega
  · rfl

theorem axisMin_toNat (raw cmin : Byte) : (axisMin raw cmin).toNat = minAfter raw.toNat cmin.toNat := by
  unfold axisMin minAfter
  simp only [Config.center]
  split
  · split <;> omega
  · rfl

theorem axisBound_toNat (raw cmax cmin : Byte) :
    (axisBound raw cmax cmin).toNat = boundAfter raw.toNat cmax.toNat cmin.toNat := by
  unfold axisBound boundAfter
  simp only [Config.center]
  split
  · exact axisMax_toNat raw cmax
  · exact axisMin_toNat raw cmin

theorem axisDist_eq (raw cmax cmin : Byte) :
    axisDist (axisBound raw cmax cmin) = distAfter raw.toNat cmax.toNat cmin.toNat := by
  unfold axisDist distAfter zext
  rw [axisBound_toNat]
  simp only [Config.center]
  split <;> rename_i h
  · rw [abs_of_nonpos] <;> push_cast at * <;> omega
  · rw [abs_of_nonneg] <;> push_cast at * <;> omega

theorem distAfter_nonneg (raw cmax cmin : Nat) : 0 ≤ distAfter raw cmax cmin := abs_nonneg _

/-- The bound is updated before it is used, so the displacement never exceeds it (R99). -/
theorem raw_le_distAfter (raw cmax cmin : Nat) : |(raw : Int) - 128| ≤ distAfter raw cmax cmin := by
  unfold distAfter boundAfter maxAfter minAfter
  split
  · split
    · rw [abs_of_nonneg (by omega), abs_of_nonneg (by omega)]
      omega
    · have : raw = 128 := by omega
      subst this
      simp
  · rw [if_pos (by omega)]
    rw [abs_of_nonpos (by omega), abs_of_nonpos (by omega)]
    omega

/-- The floor of the quotient, for a positive divisor: the largest integer whose multiple does not exceed `n` (R11). -/
theorem floorDiv_spec (n d : Int) (hd : 0 < d) : floorDiv n d * d ≤ n ∧ n < (floorDiv n d + 1) * d := by
  unfold floorDiv
  rw [Int.fdiv_eq_ediv_of_nonneg _ hd.le]
  refine ⟨Int.ediv_mul_le _ hd.ne', ?_⟩
  have := Int.lt_ediv_add_one_mul_self n hd
  exact this

/-- The quotient of R97 already lies in -80..80: the clamp changes nothing (R99). -/
theorem floorDiv_numerator_range (raw : Byte) (d : Int) (hd : 0 < d) (hr : |(raw.toNat : Int) - 128| ≤ d) :
    -80 ≤ floorDiv (axisNumerator raw) d ∧ floorDiv (axisNumerator raw) d ≤ 80 := by
  have ⟨h1, h2⟩ := floorDiv_spec (axisNumerator raw) d hd
  have ⟨hlo, hhi⟩ := abs_le.mp hr
  have hn : axisNumerator raw = ((raw.toNat : Int) - 128) * 80 := rfl
  rw [hn] at h1 h2 ⊢
  constructor
  · by_contra hlt
    have : floorDiv (((raw.toNat : Int) - 128) * 80) d + 1 ≤ -80 := by omega
    nlinarith
  · by_contra hgt
    have : 81 ≤ floorDiv (((raw.toNat : Int) - 128) * 80) d := by omega
    nlinarith

/-- The step count for a positive distance is the floor itself. -/
theorem axisCount_floor (raw cmax cmin : Byte) (hd : distAfter raw.toNat cmax.toNat cmin.toNat ≠ 0) :
    axisCount .floor raw (axisBound raw cmax cmin) =
      floorDiv (axisNumerator raw) (distAfter raw.toNat cmax.toNat cmin.toNat) := by
  have hpos : 0 < distAfter raw.toNat cmax.toNat cmin.toNat :=
    lt_of_le_of_ne (distAfter_nonneg _ _ _) (Ne.symm hd)
  have hr := floorDiv_numerator_range raw _ hpos (raw_le_distAfter _ _ _)
  unfold axisCount
  rw [axisDist_eq, if_neg hd]
  simp only [axisQuotient, Config.resolution]
  rw [clamp_eq _ _ _ (by norm_num)]
  push_cast
  omega

theorem axisCount_zero (rnd : Config.Rounding) (raw cmax cmin : Byte)
    (hd : distAfter raw.toNat cmax.toNat cmin.toNat = 0) : axisCount rnd raw (axisBound raw cmax cmin) = 0 := by
  unfold axisCount
  rw [axisDist_eq, if_pos hd]

theorem axisCount_range (rnd : Config.Rounding) (raw bound : Byte) :
    -80 ≤ axisCount rnd raw bound ∧ axisCount rnd raw bound ≤ 80 := by
  unfold axisCount
  split
  · omega
  · rw [clamp_eq _ _ _ (by norm_num)]
    simp only [Config.resolution]
    push_cast
    omega

/-- A count in -80..80 survives the 8-bit register. -/
theorem toInt_ofInt_count (k : Int) (h1 : -80 ≤ k) (h2 : k ≤ 80) : (BitVec.ofInt 8 k).toInt = k := by
  rw [BitVec.toInt_ofInt]
  apply Int.bmod_eq_of_le <;> omega

/-- AxisStep does what R94 to R99 say. -/
theorem axisStep_spec (raw : Byte) (c : Cal) :
    axisRel raw c (BitVec.ofInt 8 (axisStep .floor raw c).1) (axisStep .floor raw c).2 := by
  have hr := axisCount_range .floor raw (axisBound raw c.max c.min)
  have hk := toInt_ofInt_count _ hr.1 hr.2
  unfold axisRel axisStep
  dsimp only
  rw [hk]
  refine ⟨axisMax_toNat raw c.max, axisMin_toNat raw c.min, fun h0 => axisCount_zero _ _ _ _ h0, fun hd => ?_, hr⟩
  have hpos : 0 < distAfter raw.toNat c.max.toNat c.min.toNat :=
    lt_of_le_of_ne (distAfter_nonneg _ _ _) (Ne.symm hd)
  rw [axisCount_floor raw c.max c.min hd]
  exact floorDiv_spec _ _ hpos

/-- Trig does what R109 says, for every value of the two inputs. -/
theorem trigCount_spec (offset span raw : Byte) : trigRel offset span raw (BitVec.ofInt 8 (trigCount offset span raw)) := by
  have hs := span.isLt
  unfold trigRel trigCount
  rw [clamp_eq _ _ _ (by unfold zext; omega)]
  unfold zext
  rw [BitVec.toNat_ofInt]
  have : ((max 0 (min ((raw.toNat : Int) - offset.toNat) (span.toNat : Int))) % 2 ^ 8)
      = max 0 (min ((raw.toNat : Int) - offset.toNat) (span.toNat : Int)) := by
    apply Int.emod_eq_of_lt <;> omega
  push_cast at *
  rw [this]
  omega

/-- A button test is its bit, for the eight masks of R49 and the four of R50. -/
theorem btnBit_mask (v : Byte) (n : Button) : btnBit v (buttonMask n) = v.getLsbD (buttonBit n) := by
  have hm : buttonMask n = BitVec.twoPow 8 (buttonBit n) := by cases n <;> rfl
  have hne : BitVec.twoPow 8 (buttonBit n) ≠ 0#8 := by cases n <;> decide
  unfold btnBit
  rw [hm, BitVec.and_twoPow]
  cases v.getLsbD (buttonBit n) <;> simp [hne]

theorem subIsZero_iff (sf : SubFrame) : subIsZero sf = true ↔ allZero sf := by
  unfold subIsZero allZero
  rw [List.all_eq_true]
  constructor
  · intro h j
    have := h sf[j] (by simp)
    simpa using this
  · intro h b hb
    rw [Vector.mem_toList_iff] at hb
    obtain ⟨i, hi, rfl⟩ := Vector.mem_iff_getElem.mp hb
    simpa using h ⟨i, hi⟩

theorem decodeButtons_get (po : Port) (sf : SubFrame) (n : Button) :
    (po.decodeButtons sf).btn.get n = (sf[buttonByteIndex n]).getLsbD (buttonBit n) := by
  rw [← btnBit_mask]
  cases n <;> rfl

theorem decodeSticks_get (po : Port) (sf : SubFrame) (ax : Axis) :
    (po.decodeSticks sf).stick.get ax =
        BitVec.ofInt 8 (axisStep Config.stickRound sf[axisByteIndex ax] (po.cal.get ax)).1 ∧
      (po.decodeSticks sf).cal.get ax = (axisStep Config.stickRound sf[axisByteIndex ax] (po.cal.get ax)).2 := by
  cases ax <;>
    simp [Port.decodeSticks, Port.stepAxis_stick, Port.stepAxis_cal, Sticks.get, Sticks.set, Cals.get, Cals.set, axisByteIndex]

theorem decodeTriggers_get (po : Port) (offset span : Byte) (sf : SubFrame) (t : Trigger) :
    (po.decodeTriggers offset span sf).trig.get t = BitVec.ofInt 8 (trigCount offset span sf[triggerByteIndex t]) := by
  cases t <;> rfl

/-- DECODE does what R72 to R74 say. -/
theorem decodeSub_spec (po : Port) (offset span : Byte) (sf : SubFrame) :
    decodeRel offset span sf po (po.decodeSub offset span sf) := by
  unfold Port.decodeSub
  by_cases hz : allZero sf
  · rw [if_pos ((subIsZero_iff sf).mpr hz)]
    exact ⟨rfl, fun _ => ⟨rfl, rfl, rfl, rfl⟩, fun h => absurd hz h⟩
  · rw [if_neg (fun h => hz ((subIsZero_iff sf).mp h))]
    refine ⟨rfl, fun h => absurd h hz, fun _ => ⟨fun n => decodeButtons_get (po.latchRaw sf) sf n, fun ax => ?_, fun t => ?_⟩⟩
    · have h := decodeSticks_get ((po.latchRaw sf).decodeButtons sf) sf ax
      have hs := axisStep_spec sf[axisByteIndex ax] (po.cal.get ax)
      have e1 : (((po.latchRaw sf).decodeActive offset span sf).stick.get ax) =
          (((po.latchRaw sf).decodeButtons sf).decodeSticks sf).stick.get ax := rfl
      have e2 : (((po.latchRaw sf).decodeActive offset span sf).cal.get ax) =
          (((po.latchRaw sf).decodeButtons sf).decodeSticks sf).cal.get ax := rfl
      rw [e1, e2, h.1, h.2]
      exact hs
    · have e : (((po.latchRaw sf).decodeActive offset span sf).trig.get t) =
          BitVec.ofInt 8 (trigCount offset span sf[triggerByteIndex t]) := by cases t <;> rfl
      rw [e]
      exact trigCount_spec offset span sf[triggerByteIndex t]

end Sys2Proof.Machine
end

