-- ==== Sys2Proof/Laws/Ops.lean ====
section
/-! SUPPORT. What each shared operation can do, and what a step can do, said once. -/

namespace Sys2Proof.Machine

theorem accept_busy (s : State) (op : State → State) (h : s.busy = true) : s.accept op = s := by simp [State.accept, h]

theorem accept_free (s : State) (op : State → State) (h : s.busy = false) : s.accept op = op s := by simp [State.accept, h]

theorem needPorts_on (s : State) (op : State → State) (h : s.alloc = true) : s.needPorts op = op s := by
  simp [State.needPorts, h]

theorem needPorts_off (s : State) (op : State → State) (h : s.alloc = false) :
    s.needPorts op = s.raiseStatus .command .notInitialized 0 := by simp [State.needPorts, h]

theorem raiseStatus_command (s : State) (c : Status) (n : Nat) :
    s.raiseStatus .command c n = { s with cmdRsp := some { status := c, data := List.replicate n 0 } } := rfl

theorem raiseStatus_query (s : State) (c : Status) (n : Nat) :
    s.raiseStatus .query c n = { s with qryRsp := some { status := c, data := List.replicate n 0 } } := rfl

/-- The index in range names the port of that number; every other index names none (R34, R119). -/
theorem queryPort_some (q1 : Byte) (p : PortIdx) : queryPort q1 = some p ↔ q1.toInt = (p.toNat : Int) := by
  revert q1 p
  decide +kernel

theorem queryPort_none (q1 : Byte) : queryPort q1 = none ↔ q1.toInt < 0 ∨ 3 < q1.toInt := by
  unfold queryPort sext8
  split <;> simp_all

/-- A query writes its response and nothing else. -/
theorem queryWith_frame (s : State) (q1 : Byte) (n : Nat) (data : Port → List Byte) :
    s.queryWith q1 n data = { s with qryRsp := (s.queryWith q1 n data).qryRsp } := by
  unfold State.queryWith
  split
  · split <;> rfl
  · rfl

/-- The three answers of a query (R117, R118, R130). -/
theorem queryWith_ok (s : State) (q1 : Byte) (n : Nat) (data : Port → List Byte) (p : PortIdx) (ha : s.alloc = true)
    (hp : q1.toInt = (p.toNat : Int)) : s.queryWith q1 n data = s.respond .query .ok (data (s.port p)) := by
  simp [State.queryWith, ha, (queryPort_some q1 p).mpr hp]

theorem queryWith_outOfRange (s : State) (q1 : Byte) (n : Nat) (data : Port → List Byte) (ha : s.alloc = true)
    (hp : q1.toInt < 0 ∨ 3 < q1.toInt) : s.queryWith q1 n data = s.raiseStatus .query .outOfRange n := by
  simp [State.queryWith, ha, (queryPort_none q1).mpr hp]

theorem queryWith_notInitialized (s : State) (q1 : Byte) (n : Nat) (data : Port → List Byte) (ha : s.alloc = false) :
    s.queryWith q1 n data = s.raiseStatus .query .notInitialized n := by
  simp [State.queryWith, ha]

/-- Every instruction has a next state in every state. -/
theorem exec_next (i : Instr) (s : State) : ∃ t, exec i s = .next t := by cases i <;> exact ⟨_, rfl⟩

/-- A row of the query channel writes the query response and nothing else. -/
theorem exec_query_frame (q0 q1 : Byte) (s t : State) (h : exec (decodeQueryBytes q0 q1) s = .next t) :
    t = { s with qryRsp := t.qryRsp } := by
  have key : ∀ i : Instr, i.place = .query → exec i s = .next t → t = { s with qryRsp := t.qryRsp } := by
    intro i hi he
    cases i <;> simp only [Instr.place, reduceCtorEq] at hi <;>
      simp only [exec, execGet, execIsactive, execQryReservedB1, execQryReservedB2, execQryReservedB3, execQryReservedB4,
        execQryReservedB5, execQryReservedB6, execQryReservedB7, Host.Outcome.next.injEq] at he <;> subst he <;>
      first | exact queryWith_frame s _ _ _ | rfl
  apply key _ _ h
  unfold decodeQueryBytes
  repeat' split
  all_goals rfl

theorem takeBytes_append {n : Nat} (v : Vector Byte n) (rest : List Byte) : takeBytes n (v.toList ++ rest) = some (v, rest) := by
  have hl : v.toList.length = n := by simp
  unfold takeBytes
  rw [dif_pos (by simp)]
  have h2 : (v.toList ++ rest).drop n = rest := List.drop_left' hl
  simp only [h2, Option.some.injEq, Prod.mk.injEq, and_true]
  apply Vector.toList_inj.mp
  simp [Vector.toList]

theorem takeBytes_some {n : Nat} {l rest : List Byte} {v : Vector Byte n} (h : takeBytes n l = some (v, rest)) :
    v.toList ++ rest = l := by
  unfold takeBytes at h
  split at h
  · simp only [Option.some.injEq, Prod.mk.injEq] at h
    obtain ⟨rfl, rfl⟩ := h
    simp [Vector.toList]
  · cases h

theorem takeBytes_none {n : Nat} {l : List Byte} (h : takeBytes n l = none) : l.length < n := by
  unfold takeBytes at h
  split at h
  · cases h
  · omega

/-- The latched frame decodes to the extractor row of its port. -/
theorem decodeFrameBlock_frame (p : PortIdx) (f : Frame) : decodeFrameBlock p f.toList = .ok (extractRow p f, []) := by
  have h := takeBytes_append f []
  rw [List.append_nil] at h
  simp [decodeFrameBlock, h]

/-- The extractor row of a port decodes its sub-frame into it. -/
theorem exec_extractRow (p : PortIdx) (f : Frame) (s : State) :
    exec (extractRow p f) s = .next (s.decodePort p (subOfFrame f p)) := by
  have h : p = 0 ∨ p = 1 ∨ p = 2 ∨ p = 3 := by revert p; decide
  rcases h with rfl | rfl | rfl | rfl <;> rfl

/-- The decode step of a latched frame (R69). -/
def dstepState (s : State) : State :=
  (s.beginStep.decodePort s.pidx (subOfFrame s.fbuf s.pidx)).advance s.pidx

/-- What the next instruction can be. -/
theorem fetch_cases (s : State) (pl : Place) (bytes : List Byte) (h : s.fetch = some (pl, bytes)) :
    (∃ q qs, s.qryIn = q :: qs ∧ pl = .query ∧ bytes = queryBytes q) ∨
    (s.busy = true ∧ pl = .frameBlock s.pidx ∧ bytes = s.fbuf.toList) ∨
    (s.busy = false ∧ pl = .command ∧ bytes = s.cmdIn ∧ s.cmdIn ≠ []) := by
  unfold State.fetch at h
  split at h
  · cases h
  · split at h
    · rename_i q qs hq
      simp only [Option.some.injEq, Prod.mk.injEq] at h
      exact .inl ⟨q, qs, hq, h.1.symm, h.2.symm⟩
    · cases h
  · rename_i hm
    split at h
    · rename_i hb
      simp only [Option.some.injEq, Prod.mk.injEq] at h
      exact .inr (.inl ⟨hb, h.1.symm, h.2.symm⟩)
    · rename_i hb
      simp only [Option.some.injEq, Prod.mk.injEq] at h
      have hb' : s.busy = false := by simpa using hb
      refine .inr (.inr ⟨hb', h.1.symm, h.2.symm, fun hn => ?_⟩)
      have hd : s.decoderReady = false := by simp [State.decoderReady, hb', hn]
      unfold State.mover at hm
      rw [hd] at hm
      split at hm <;> simp_all

/-- What a step can do (R38, R40): hardware reset, waiting, a query, a decode step, or the acceptance of a command. -/
theorem step_cases (s t : State) (h : step s = .next t) :
    (s.resetAsserted = true ∧ t = s.hardReset) ∨
    (s.resetAsserted = false ∧ s.mover = none ∧ t = s.beginStep) ∨
    (s.resetAsserted = false ∧ s.mover = some .consumer ∧ ∃ q qs, s.qryIn = q :: qs ∧
      exec (decodeQueryBytes (q.extractLsb' 0 8) (q.extractLsb' 8 8)) { s.beginStep with qryIn := qs } = .next t) ∨
    (s.resetAsserted = false ∧ s.mover = some .decoder ∧ s.busy = true ∧ t = dstepState s) ∨
    (s.resetAsserted = false ∧ s.mover = some .decoder ∧ s.busy = false ∧ ∃ i rest, decodeCommand s.cmdIn = .ok (i, rest) ∧
      exec i { s.beginStep with cmdIn := rest } = .next t) := by
  unfold step at h
  split at h
  · rename_i hr
    simp only [Host.Outcome.next.injEq] at h
    exact .inl ⟨hr, h.symm⟩
  · rename_i hr
    have hr' : s.resetAsserted = false := by simpa using hr
    have hq : s.mover = some .consumer → s.qryIn ≠ [] := by
      intro hm he
      unfold State.mover State.consumerReady at hm
      rw [he] at hm
      revert hm
      cases s.decoderReady <;> simp
    rcases hm : s.mover with _ | (_ | _)
    · simp only [State.fetch, hm, Host.Outcome.next.injEq] at h
      exact .inr (.inl ⟨hr', rfl, h.symm⟩)
    · refine .inr (.inr (.inr ?_))
      rcases hb : s.busy with _ | _
      · refine .inr ⟨hr', rfl, rfl, ?_⟩
        simp only [State.fetch, hm, hb, Bool.false_eq_true, if_false] at h
        rcases hd : decodeCommand s.cmdIn with e | ⟨i, rest⟩
        · simp [decode, hd] at h
        · simp only [decode, hd] at h
          exact ⟨i, rest, rfl, h⟩
      · refine .inl ⟨hr', rfl, rfl, ?_⟩
        simp only [State.fetch, hm, hb, if_true, decode, decodeFrameBlock_frame] at h
        rw [exec_extractRow] at h
        simp only [retire, Host.Outcome.next.injEq] at h
        exact h.symm
    · rcases hqs : s.qryIn with _ | ⟨q, qs⟩
      · exact absurd hqs (hq hm)
      · refine .inr (.inr (.inl ⟨hr', rfl, q, qs, rfl, ?_⟩))
        simp only [State.fetch, hm, hqs, decode, queryBytes, decodeQuery, retire] at h
        simpa [State.consume, hqs] using h

/-- What the decoder reads from the command stream is a row of the command channel. -/
theorem place_of_decodeCommand (l rest : List Byte) (i : Instr) (h : decodeCommand l = .ok (i, rest)) : i.place = .command := by
  rcases l with _ | ⟨b, l⟩
  · cases h
  · simp only [decodeCommand] at h
    repeat' split at h
    all_goals first | (cases h; rfl) | cases h

/-- What an accepted command can do (R63, R68, R71, R114, R115): start, stop, latch a frame, decode a sub-frame, or raise a status
and write nothing. -/
theorem exec_command_cases (i : Instr) (s t : State) (hp : i.place = .command) (hb : s.busy = false) (h : exec i s = .next t) :
    (∃ u, i = .start u ∧ t = s.startPorts.respond .command .ok []) ∨
    (∃ u, i = .stop u ∧ t = ({ s with alloc := false } : State).respond .command .ok []) ∨
    (∃ u f, i = .frame u f ∧ s.alloc = true ∧ t = s.latchFrame f) ∨
    (∃ p sf, i = .subframe p sf ∧ s.alloc = true ∧ t = (s.decodePort p sf).respond .command .ok []) ∨
    ((∃ c, t = s.raiseStatus .command c 0) ∧ (∀ u, i ≠ .start u) ∧ (∀ u, i ≠ .stop u) ∧
      ((∃ u f, i = .frame u f) ∨ (∃ p sf, i = .subframe p sf) → s.alloc = false)) := by
  cases i <;> simp only [Instr.place, reduceCtorEq] at hp <;>
    simp only [exec, execStart, execStop, execFrame, execSubframe, execCmdReservedOp, execCmdReservedB3, execCmdReservedB4,
      execCmdReservedB5, State.badCommand, accept_free _ _ hb, Host.Outcome.next.injEq] at h <;> subst h
  case start u => exact .inl ⟨u, rfl, rfl⟩
  case stop u => exact .inr (.inl ⟨u, rfl, rfl⟩)
  case frame u f =>
    unfold State.needPorts
    split
    · rename_i ha
      exact .inr (.inr (.inl ⟨u, f, rfl, ha, rfl⟩))
    · rename_i ha
      exact .inr (.inr (.inr (.inr ⟨⟨_, rfl⟩, by simp, by simp, fun _ => by simpa using ha⟩)))
  case subframe p sf =>
    unfold State.needPorts
    split
    · rename_i ha
      exact .inr (.inr (.inr (.inl ⟨p, sf, rfl, ha, rfl⟩)))
    · rename_i ha
      exact .inr (.inr (.inr (.inr ⟨⟨_, rfl⟩, by simp, by simp, fun _ => by simpa using ha⟩)))
  all_goals exact .inr (.inr (.inr (.inr ⟨⟨_, rfl⟩, by simp, by simp, by simp⟩)))

/-- The sequencer moves `busy`, `pidx` and the command response only. -/
theorem advance_frame (s : State) (p : PortIdx) :
    s.advance p = { s with busy := (s.advance p).busy, pidx := (s.advance p).pidx, cmdRsp := (s.advance p).cmdRsp } := by
  unfold State.advance
  split <;> rfl

@[simp] theorem advance_port (s : State) (p q : PortIdx) : (s.advance p).port q = s.port q := by
  unfold State.advance
  split <;> rfl

/-- A decode into port `p`, seen from any port. -/
theorem decodePort_cases (s : State) (p q : PortIdx) (sf : SubFrame) :
    (q = p ∧ decodeRel s.trigOffset s.trigSpan sf (s.port q) ((s.decodePort p sf).port q)) ∨
    (q ≠ p ∧ (s.decodePort p sf).port q = s.port q) := by
  by_cases h : q = p
  · subst h
    rw [State.decodePort_port_self]
    exact .inl ⟨rfl, decodeSub_spec _ _ _ _⟩
  · exact .inr ⟨h, State.decodePort_port_ne _ _ _ _ h⟩

/-- A first step, then the rest of the run, for any machine. -/
theorem core_run_next (M : Host.Core) (k : Nat) (s u : M.State) (h : M.step s = .next u) :
    M.run (k + 1) s = M.run k u := by
  simp only [Host.Core.run, h]

/-- A run of at least one step has a first step, for any machine. -/
theorem core_run_inv (M : Host.Core) (k : Nat) (s t : M.State) (h : M.run (k + 1) s = .next t) :
    ∃ u, M.step s = .next u ∧ M.run k u = .next t := by
  simp only [Host.Core.run] at h
  split at h
  · rename_i u hu
    exact ⟨u, hu, h⟩
  · cases h
  · cases h

/-- A first step, then the rest of the run. -/
theorem run_next (k : Nat) (s u : State) (h : step s = .next u) :
    Host.Core.run Sys2Proof.core (k + 1) s = Host.Core.run Sys2Proof.core k u :=
  core_run_next Sys2Proof.core k s u h

/-- A run of at least one step has a first step. -/
theorem run_inv (k : Nat) (s t : State) (h : Host.Core.run Sys2Proof.core (k + 1) s = .next t) :
    ∃ u, step s = .next u ∧ Host.Core.run Sys2Proof.core k u = .next t :=
  core_run_inv Sys2Proof.core k s t h
end Sys2Proof.Machine
end

