-- ==== Sys2Proof/Laws/PerInstr.lean ====
section
/-! SUPPORT. The family "for every instruction", one lemma per constructor: how many bytes it encodes to (30 R64). -/

namespace Sys2Proof.Laws

/-- An instruction encodes to as many bytes as its row has (R64). -/
def EncodedLength.Statement (i : Instr) : Prop := (encode i).length = i.packetBytes

theorem EncodedLength.start (u : BitVec 2) : EncodedLength.Statement (.start u) := rfl
theorem EncodedLength.stop (u : BitVec 2) : EncodedLength.Statement (.stop u) := rfl
theorem EncodedLength.frame (u : BitVec 2) (f : Frame) : EncodedLength.Statement (.frame u f) := by
  simp [EncodedLength.Statement, encode, Instr.packetBytes, Config.frameLen]
theorem EncodedLength.subframe (p : PortIdx) (sf : SubFrame) : EncodedLength.Statement (.subframe p sf) := by
  simp [EncodedLength.Statement, encode, Instr.packetBytes, Config.subLen]
theorem EncodedLength.cmdReservedOp (h : Byte) : EncodedLength.Statement (.cmdReservedOp h) := rfl
theorem EncodedLength.cmdReservedB3 (h : Byte) : EncodedLength.Statement (.cmdReservedB3 h) := rfl
theorem EncodedLength.cmdReservedB4 (h : Byte) : EncodedLength.Statement (.cmdReservedB4 h) := rfl
theorem EncodedLength.cmdReservedB5 (h : Byte) : EncodedLength.Statement (.cmdReservedB5 h) := rfl
theorem EncodedLength.get (q1 : Byte) : EncodedLength.Statement (.get q1) := rfl
theorem EncodedLength.isactive (q1 : Byte) : EncodedLength.Statement (.isactive q1) := rfl
theorem EncodedLength.qryReservedB1 (q0 q1 : Byte) : EncodedLength.Statement (.qryReservedB1 q0 q1) := rfl
theorem EncodedLength.qryReservedB2 (q0 q1 : Byte) : EncodedLength.Statement (.qryReservedB2 q0 q1) := rfl
theorem EncodedLength.qryReservedB3 (q0 q1 : Byte) : EncodedLength.Statement (.qryReservedB3 q0 q1) := rfl
theorem EncodedLength.qryReservedB4 (q0 q1 : Byte) : EncodedLength.Statement (.qryReservedB4 q0 q1) := rfl
theorem EncodedLength.qryReservedB5 (q0 q1 : Byte) : EncodedLength.Statement (.qryReservedB5 q0 q1) := rfl
theorem EncodedLength.qryReservedB6 (q0 q1 : Byte) : EncodedLength.Statement (.qryReservedB6 q0 q1) := rfl
theorem EncodedLength.qryReservedB7 (q0 q1 : Byte) : EncodedLength.Statement (.qryReservedB7 q0 q1) := rfl
theorem EncodedLength.extractP0 (f : Frame) : EncodedLength.Statement (.extractP0 f) := by
  simp [EncodedLength.Statement, encode, Instr.packetBytes]
theorem EncodedLength.extractP1 (f : Frame) : EncodedLength.Statement (.extractP1 f) := by
  simp [EncodedLength.Statement, encode, Instr.packetBytes]
theorem EncodedLength.extractP2 (f : Frame) : EncodedLength.Statement (.extractP2 f) := by
  simp [EncodedLength.Statement, encode, Instr.packetBytes]
theorem EncodedLength.extractP3 (f : Frame) : EncodedLength.Statement (.extractP3 f) := by
  simp [EncodedLength.Statement, encode, Instr.packetBytes]
theorem EncodedLength.btnA (p : PortIdx) (v : Byte) : EncodedLength.Statement (.btnA p v) := rfl
theorem EncodedLength.btnB (p : PortIdx) (v : Byte) : EncodedLength.Statement (.btnB p v) := rfl
theorem EncodedLength.btnX (p : PortIdx) (v : Byte) : EncodedLength.Statement (.btnX p v) := rfl
theorem EncodedLength.btnY (p : PortIdx) (v : Byte) : EncodedLength.Statement (.btnY p v) := rfl
theorem EncodedLength.btnLeft (p : PortIdx) (v : Byte) : EncodedLength.Statement (.btnLeft p v) := rfl
theorem EncodedLength.btnRight (p : PortIdx) (v : Byte) : EncodedLength.Statement (.btnRight p v) := rfl
theorem EncodedLength.btnDown (p : PortIdx) (v : Byte) : EncodedLength.Statement (.btnDown p v) := rfl
theorem EncodedLength.btnUp (p : PortIdx) (v : Byte) : EncodedLength.Statement (.btnUp p v) := rfl
theorem EncodedLength.btnStart (p : PortIdx) (v : Byte) : EncodedLength.Statement (.btnStart p v) := rfl
theorem EncodedLength.btnZ (p : PortIdx) (v : Byte) : EncodedLength.Statement (.btnZ p v) := rfl
theorem EncodedLength.btnR (p : PortIdx) (v : Byte) : EncodedLength.Statement (.btnR p v) := rfl
theorem EncodedLength.btnL (p : PortIdx) (v : Byte) : EncodedLength.Statement (.btnL p v) := rfl
theorem EncodedLength.sub1Unused (p : PortIdx) (v : Byte) : EncodedLength.Statement (.sub1Unused p v) := rfl
theorem EncodedLength.stickLX (p : PortIdx) (v : Byte) : EncodedLength.Statement (.stickLX p v) := rfl
theorem EncodedLength.stickLY (p : PortIdx) (v : Byte) : EncodedLength.Statement (.stickLY p v) := rfl
theorem EncodedLength.stickRX (p : PortIdx) (v : Byte) : EncodedLength.Statement (.stickRX p v) := rfl
theorem EncodedLength.stickRY (p : PortIdx) (v : Byte) : EncodedLength.Statement (.stickRY p v) := rfl
theorem EncodedLength.trigL (p : PortIdx) (v : Byte) : EncodedLength.Statement (.trigL p v) := rfl
theorem EncodedLength.trigR (p : PortIdx) (v : Byte) : EncodedLength.Statement (.trigR p v) := rfl
theorem EncodedLength.statusOk (ch : Channel) : EncodedLength.Statement (.statusOk ch) := rfl
theorem EncodedLength.statusNotInitialized (ch : Channel) : EncodedLength.Statement (.statusNotInitialized ch) := rfl
theorem EncodedLength.statusOutOfRange (ch : Channel) : EncodedLength.Statement (.statusOutOfRange ch) := rfl
theorem EncodedLength.statusBadCommand (ch : Channel) : EncodedLength.Statement (.statusBadCommand ch) := rfl

end Sys2Proof.Laws
end

