-- ==== Sys2Proof/Tests/Slice0.lean ====
section
/-! SUPPORT. Tests: ill-formed terms, words written out from the spec's encodings, one step against the vectors of spec/95_test_vectors.md,
and for every statement with hypotheses a state and operands that meet them. -/

namespace Sys2Proof.Tests

open Sys2Proof Sys2Proof.Machine

-- One proof after another: many kernel evaluations side by side need more memory than the check gives.
set_option Elab.async false

/-- What `f` sees in the state after an outcome. -/
def after {α : Type} (f : State → α) : Host.Outcome State Fault Refusal → Option α
  | .next s => some (f s)
  | _ => none

/-- The state after START from reset. -/
def on : State := State.reset.startPorts

/-- `on` with command bytes presented. -/
def onCmd (l : List Byte) : State := { on with cmdIn := l }

/-- `on` with a query presented. -/
def onQry (q : BitVec 16) : State := { on with qryIn := [q] }

/-- The frame of V40. -/
def frameV40 : Frame :=
  frame4 #v[0xA1, 0, 0, 0, 0, 0, 0, 0] #v[0xB2, 0, 0, 0, 0, 0, 0, 0] #v[0xC3, 0, 0, 0, 0, 0, 0, 0] #v[0xD4, 0, 0, 0, 0, 0, 0, 0]

/-- `on` while the frame of V40 is decoded, before port `p`. -/
def onBusy (p : PortIdx) : State := { on with busy := true, pidx := p, fbuf := frameV40 }

/-- The sub-frame of program P3, step 3. -/
def subP3 : SubFrame := #v[0x02, 0x04, 0x80, 0x1E, 0x80, 0x80, 0xE4, 0x80]

/-- The sub-frame of V14: button bytes, sticks at the centre, triggers at 0. -/
def subBtn (b0 b1 : Byte) : SubFrame := #v[b0, b1, 0x80, 0x80, 0x80, 0x80, 0, 0]

/-- The record of a slot START leaves (10 R28 in the layout of 30 R60). -/
def rec0 : List Byte := [0, 0, 0, 0, 0, 0, 0, 0, 0, 0, 0, 0, 0, 0, 0, 0, 208, 48, 208, 48, 208, 48, 208, 48, 0]

/-! ## WellFormed -/

theorem test_wf_refuses_cmdReservedOp : (Instr.cmdReservedOp 0x03).wf = false := by decide
theorem test_wf_refuses_cmdReservedB3 : (Instr.cmdReservedB3 0x10).wf = false := by decide
theorem test_wf_refuses_cmdReservedB4 : (Instr.cmdReservedB4 0x18).wf = false := by decide
theorem test_wf_refuses_cmdReservedB5 : (Instr.cmdReservedB5 0x38).wf = false := by decide
theorem test_wf_refuses_cmdReservedB3_op : (Instr.cmdReservedB3 0x0C).wf = false := by decide
theorem test_wf_refuses_qryReservedB1 : (Instr.qryReservedB1 0x01 0).wf = false := by decide
theorem test_wf_refuses_qryReservedB2 : (Instr.qryReservedB2 0x6 0).wf = false := by decide
theorem test_wf_refuses_qryReservedB3 : (Instr.qryReservedB3 0xc 0).wf = false := by decide
theorem test_wf_refuses_qryReservedB4 : (Instr.qryReservedB4 0x18 0).wf = false := by decide
theorem test_wf_refuses_qryReservedB5 : (Instr.qryReservedB5 0x30 0).wf = false := by decide
theorem test_wf_refuses_qryReservedB6 : (Instr.qryReservedB6 0x60 0).wf = false := by decide
theorem test_wf_refuses_qryReservedB7 : (Instr.qryReservedB7 0xc0 0).wf = false := by decide

/-! ## Decoding: words written out from the encodings of 30_encoding -/

/-- Headers 0x00, 0x41, 0x42, 0xC3 (R54, R55, V43), and one reserved header for each reserved row (R63). -/
theorem test_decode_command :
    decode .command [0x00#8, 0x55] = .ok (.start 0, [0x55]) ∧
    decode .command [0x41#8] = .ok (.stop 1, []) ∧
    decode .command (0x42#8 :: frameV40.toList) = .ok (.frame 1 frameV40, []) ∧
    decode .command [0xC3#8, 0x02, 0x04, 0x80, 0x1E, 0x80, 0x80, 0xE4, 0x80, 0x99] = .ok (.subframe 3 subP3, [0x99]) ∧
    decode .command [0x07#8] = .ok (.cmdReservedOp 0x07, []) ∧
    decode .command [0x0B#8] = .ok (.cmdReservedB3 0x0B, []) ∧
    decode .command [0x10#8] = .ok (.cmdReservedB4 0x10, []) ∧
    decode .command [0x20#8] = .ok (.cmdReservedB5 0x20, []) := ⟨rfl, rfl, rfl, rfl, rfl, rfl, rfl, rfl⟩

/-- Query packets (R57, R63). -/
theorem test_decode_query :
    decode .query [0x00#8, 0x03] = .ok (.get 3, []) ∧ decode .query [0x01#8, 0xFF] = .ok (.isactive 0xFF, []) ∧
    decode .query [0x02#8, 0x04] = .ok (.qryReservedB1 0x02 0x04, []) ∧
    decode .query [0x04#8, 0x00] = .ok (.qryReservedB2 0x04 0, []) ∧
    decode .query [0x08#8, 0x00] = .ok (.qryReservedB3 0x08 0, []) ∧
    decode .query [0x10#8, 0x00] = .ok (.qryReservedB4 0x10 0, []) ∧
    decode .query [0x20#8, 0x00] = .ok (.qryReservedB5 0x20 0, []) ∧
    decode .query [0x40#8, 0x00] = .ok (.qryReservedB6 0x40 0, []) ∧
    decode .query [0x80#8, 0x01] = .ok (.qryReservedB7 0x80 1, []) := ⟨rfl, rfl, rfl, rfl, rfl, rfl, rfl, rfl, rfl⟩

/-- The four blocks of a frame (R47, R75). -/
theorem test_decode_frame :
    decode (.frameBlock 0) frameV40.toList = .ok (.extractP0 frameV40, []) ∧
    decode (.frameBlock 1) frameV40.toList = .ok (.extractP1 frameV40, []) ∧
    decode (.frameBlock 2) frameV40.toList = .ok (.extractP2 frameV40, []) ∧
    decode (.frameBlock 3) frameV40.toList = .ok (.extractP3 frameV40, []) := ⟨rfl, rfl, rfl, rfl⟩

/-- One byte for each field of a sub-frame (R49 to R52). -/
theorem test_decode_sub :
    decode (.field 2 .btnA) [0x01#8] = .ok (.btnA 2 0x01, []) ∧
    decode (.field 2 .btnB) [0x02#8] = .ok (.btnB 2 0x02, []) ∧
    decode (.field 2 .btnX) [0x04#8] = .ok (.btnX 2 0x04, []) ∧
    decode (.field 2 .btnY) [0x08#8] = .ok (.btnY 2 0x08, []) ∧
    decode (.field 2 .btnLeft) [0x10#8] = .ok (.btnLeft 2 0x10, []) ∧
    decode (.field 2 .btnRight) [0x20#8] = .ok (.btnRight 2 0x20, []) ∧
    decode (.field 2 .btnDown) [0x40#8] = .ok (.btnDown 2 0x40, []) ∧
    decode (.field 2 .btnUp) [0x80#8] = .ok (.btnUp 2 0x80, []) ∧
    decode (.field 2 .btnStart) [0x01#8] = .ok (.btnStart 2 0x01, []) ∧
    decode (.field 2 .btnZ) [0x02#8] = .ok (.btnZ 2 0x02, []) ∧
    decode (.field 2 .btnR) [0x04#8] = .ok (.btnR 2 0x04, []) ∧
    decode (.field 2 .btnL) [0x08#8] = .ok (.btnL 2 0x08, []) ∧
    decode (.field 2 .sub1Unused) [0xf0#8] = .ok (.sub1Unused 2 0xf0, []) ∧
    decode (.field 2 .stickLX) [0xc8#8] = .ok (.stickLX 2 0xc8, []) ∧
    decode (.field 2 .stickLY) [0x30#8] = .ok (.stickLY 2 0x30, []) ∧
    decode (.field 2 .stickRX) [0x7f#8] = .ok (.stickRX 2 0x7f, []) ∧
    decode (.field 2 .stickRY) [0x81#8] = .ok (.stickRY 2 0x81, []) ∧
    decode (.field 2 .trigL) [0xe4#8] = .ok (.trigL 2 0xe4, []) ∧
    decode (.field 2 .trigR) [0x1c#8] = .ok (.trigR 2 0x1c, []) := by
  refine ⟨rfl, rfl, rfl, rfl, rfl, rfl, rfl, rfl, rfl, rfl, rfl, rfl, rfl, rfl, rfl, rfl, rfl, rfl, rfl⟩

/-- The status bytes (R59, R124); 04 is never produced. -/
theorem test_decode_status :
    decode (.response .command) [0x00#8] = .ok (.statusOk .command, []) ∧
    decode (.response .query) [0x01#8] = .ok (.statusNotInitialized .query, []) ∧
    decode (.response .query) [0x02#8] = .ok (.statusOutOfRange .query, []) ∧
    decode (.response .command) [0x03#8] = .ok (.statusBadCommand .command, []) ∧
    decode (.response .command) [0x04#8] = .error (.badStatus 4) := ⟨rfl, rfl, rfl, rfl, rfl⟩

/-- Exactly 16 of the 256 headers are legal (V43). -/
theorem test_legal_headers :
    ((List.range 256).filter fun n => (BitVec.ofNat 8 n).getLsbD 2 == false && (BitVec.ofNat 8 n).extractLsb' 3 3 == 0#3) =
      [0x00, 0x01, 0x02, 0x03, 0x40, 0x41, 0x42, 0x43, 0x80, 0x81, 0x82, 0x83, 0xC0, 0xC1, 0xC2, 0xC3] := by decide +kernel

/-- The encoder writes the same words. -/
theorem test_encode :
    encode (.start 0) = [0x00] ∧ encode (.stop 2) = [0x81] ∧ encode (.subframe 2 subP3) = 0x83 :: subP3.toList ∧
    encode (.get 0xFF) = [0x00, 0xFF] ∧ encode (.isactive 4) = [0x01, 0x04] := by decide

/-- The table's words: their operand bytes are 0 above the row's width. -/
theorem test_table_words :
    decodeTableWord 8 0x00 = some (.start 0) ∧ decodeTableWord 8 0x01 = some (.stop 0) ∧
    decodeTableWord 8 0x02 = some (.frame 0 (Vector.replicate 37 0)) ∧ decodeTableWord 8 0x03 = some (.subframe 0 zeroSub) ∧
    decodeTableWord 8 0x04 = some (.cmdReservedOp 4) ∧ decodeTableWord 8 0x20 = some (.cmdReservedB5 0x20) ∧
    decodeTableWord 16 0x0300 = some (.get 3) ∧ decodeTableWord 16 0x0001 = some (.isactive 0) ∧
    decodeTableWord 16 0x0080 = some (.qryReservedB7 0x80 0) := by decide +kernel

/-- What `withFetchWord` places, the next step runs. -/
theorem test_fetch_words :
    after State.alloc (step (State.reset.withFetchWord 8 0x00)) = some true ∧
    after State.cmdRsp (step (State.reset.withFetchWord 8 0x20)) = some (some { status := .badCommand, data := [] }) ∧
    after State.cmdRsp (step (State.reset.withFetchWord 8 0x02)) = some (some { status := .notInitialized, data := [] }) ∧
    after State.qryRsp (step (State.reset.withFetchWord 16 0x0001)) = some (some { status := .notInitialized, data := [0] }) ∧
    after State.pidx (step (on.withFetchWord 296 0xA10000)) = some 1 := by decide +kernel

/-! ## One step against the vectors -/

/-- V42: header C0 is START, in any state with the channel free; P3 step 18 puts the start values back. -/
theorem test_start : after (fun s => (s.alloc, recordOf (s.port 2))) (step { State.reset with cmdIn := [0xC0] }) = some (true, rec0) := by
  decide +kernel

/-- V42: header 81 is STOP. -/
theorem test_stop : after (fun s => (s.alloc, s.cmdRsp)) (step (onCmd [0x81])) = some (false, some { status := .ok, data := [] }) := by
  decide

/-- P4 step 2: a frame is latched without a response. -/
theorem test_frame : after (fun s => (s.busy, s.pidx, s.cmdRsp, s.cmdIn)) (step (onCmd (0x02 :: frameV40.toList))) =
    some (true, 0, none, []) := by decide

/-- V41: a frame outside a session is answered in its acceptance step. -/
theorem test_frame_no_session :
    after (fun s => (s.busy, s.cmdRsp)) (step { State.reset with cmdIn := 0x02 :: frameV40.toList }) =
      some (false, some { status := .notInitialized, data := [] }) := by decide

/-- P3 step 3. -/
theorem test_subframe : after (fun s => recordOf (s.port 2)) (step (onCmd (0x83 :: subP3.toList))) =
    some [0x02, 0x04, 0, 0xB0, 0, 0, 0xC8, 0x64, 0x02, 0x04, 0x80, 0x1E, 0x80, 0x80, 0xE4, 0x80,
      0xD0, 0x30, 0xD0, 0x1E, 0xD0, 0x30, 0xD0, 0x30, 0x01] := by decide +kernel

/-- V31: one non-zero trigger byte makes the sub-frame active. -/
theorem test_subframe_almost_zero : after (fun s => recordOf (s.port 0)) (step (onCmd [0x03, 0, 0, 0, 0, 0, 0, 0, 1])) =
    some [0, 0, 0xB0, 0xB0, 0xB0, 0xB0, 0, 0, 0, 0, 0, 0, 0, 0, 0, 1, 0xD0, 0, 0xD0, 0, 0xD0, 0, 0xD0, 0, 1] := by decide +kernel

/-- V40: each block reaches its port, the others keep their record. -/
theorem test_dstep : after (fun s => ((s.port 1).raw[0], (s.port 1).btn.b, recordOf (s.port 2), s.pidx)) (step (onBusy 1)) =
    some (0xB2, true, rec0, 2) := by decide +kernel

/-- P4 step 7: the fourth decode step answers the frame. -/
theorem test_dstep_last : after (fun s => ((s.port 3).raw[0], s.busy, s.pidx, s.cmdRsp)) (step (onBusy 3)) =
    some (0xD4, false, 0, some { status := .ok, data := [] }) := by decide +kernel

/-- V40, block of port 0. -/
theorem test_extractP0 : after (fun s => (s.port 0).raw) (exec (.extractP0 frameV40) on) = some #v[0xA1, 0, 0, 0, 0, 0, 0, 0] := by
  decide +kernel

/-- V40, block of port 1. -/
theorem test_extractP1 : after (fun s => (s.port 1).raw) (exec (.extractP1 frameV40) on) = some #v[0xB2, 0, 0, 0, 0, 0, 0, 0] := by
  decide +kernel

/-- V40, block of port 2. -/
theorem test_extractP2 : after (fun s => (s.port 2).raw) (exec (.extractP2 frameV40) on) = some #v[0xC3, 0, 0, 0, 0, 0, 0, 0] := by
  decide +kernel

/-- V40, block of port 3. -/
theorem test_extractP3 : after (fun s => (s.port 3).raw) (exec (.extractP3 frameV40) on) = some #v[0xD4, 0, 0, 0, 0, 0, 0, 0] := by
  decide +kernel

/-- V43: illegal headers. -/
theorem test_illegal_headers : ([0x04#8, 0x05, 0x07, 0x08, 0x10, 0x20, 0x38, 0x0B, 0x3F, 0x44, 0xFF].all fun h => decide (
    after (fun s => (s.alloc, s.cmdIn, s.cmdRsp)) (step (onCmd [h, 0x00])) = some (true, [0x00], some { status := .badCommand, data := [] }))) = true := by
  decide +kernel

/-- V41, P3: illegal queries outrank every other failure. -/
theorem test_illegal_queries : ([0x0002#16, 0x0402, 0x0202, 0x0004, 0x0008, 0x0010, 0x0020, 0x0040, 0x0080, 0x00FF].all fun q => decide (
    after (fun s => s.qryRsp.map Response.status) (step { State.reset with qryIn := [q] }) = some (some .badCommand))) = true := by
  decide +kernel

/-- V42: GET of a fresh port. -/
theorem test_get : after State.qryRsp (step (onQry 0x0300)) = some (some { status := .ok, data := rec0 }) := by decide +kernel

/-- V42: 4, -1, 127 and -128 name no port. -/
theorem test_get_out_of_range : ([0x0400#16, 0xFF00, 0x7F00, 0x8000].all fun q => decide (
    after State.qryRsp (step (onQry q)) = some (some { status := .outOfRange, data := List.replicate 25 0 }))) = true := by decide +kernel

/-- V42: ISACTIVE of a fresh port. -/
theorem test_isactive : after State.qryRsp (step (onQry 0x0301)) = some (some { status := .ok, data := [0] }) := by decide +kernel

/-- V41: NotInitialized outranks OutOfRange. -/
theorem test_isactive_no_session : after State.qryRsp (step { State.reset with qryIn := [0x0401] }) =
    some (some { status := .notInitialized, data := [0] }) := by decide +kernel

/-- V14: each of the twelve buttons alone gives record bytes 0 and 1. -/
theorem test_buttons : ([(0x01#8, 0x00#8), (0x02, 0), (0x04, 0), (0x08, 0), (0x10, 0), (0x20, 0), (0x40, 0), (0x80, 0),
      (0, 0x01), (0, 0x02), (0, 0x04), (0, 0x08)].all fun v => decide (
    after (fun s => (recordOf (s.port 0)).take 2) (exec (.subframe 0 (subBtn v.1 v.2)) on) = some [v.1, v.2])) = true := by decide +kernel

/-- V14 by rows: each row sets its button on its mask and clears it on every other bit (R80 to R91). -/
theorem test_button_rows :
    after (fun s => (s.port 1).btn.a) (exec (.btnA 1 0x01) on) = some true ∧ after (fun s => (s.port 1).btn.a) (exec (.btnA 1 0xfe) on) = some false ∧
    after (fun s => (s.port 1).btn.b) (exec (.btnB 1 0x02) on) = some true ∧ after (fun s => (s.port 1).btn.b) (exec (.btnB 1 0xfd) on) = some false ∧
    after (fun s => (s.port 1).btn.x) (exec (.btnX 1 0x04) on) = some true ∧ after (fun s => (s.port 1).btn.x) (exec (.btnX 1 0xfb) on) = some false ∧
    after (fun s => (s.port 1).btn.y) (exec (.btnY 1 0x08) on) = some true ∧ after (fun s => (s.port 1).btn.y) (exec (.btnY 1 0xf7) on) = some false ∧
    after (fun s => (s.port 1).btn.left) (exec (.btnLeft 1 0x10) on) = some true ∧ after (fun s => (s.port 1).btn.left) (exec (.btnLeft 1 0xef) on) = some false ∧
    after (fun s => (s.port 1).btn.right) (exec (.btnRight 1 0x20) on) = some true ∧ after (fun s => (s.port 1).btn.right) (exec (.btnRight 1 0xdf) on) = some false ∧
    after (fun s => (s.port 1).btn.down) (exec (.btnDown 1 0x40) on) = some true ∧ after (fun s => (s.port 1).btn.down) (exec (.btnDown 1 0xbf) on) = some false ∧
    after (fun s => (s.port 1).btn.up) (exec (.btnUp 1 0x80) on) = some true ∧ after (fun s => (s.port 1).btn.up) (exec (.btnUp 1 0x7f) on) = some false ∧
    after (fun s => (s.port 1).btn.start) (exec (.btnStart 1 0x01) on) = some true ∧ after (fun s => (s.port 1).btn.start) (exec (.btnStart 1 0xfe) on) = some false ∧
    after (fun s => (s.port 1).btn.z) (exec (.btnZ 1 0x02) on) = some true ∧ after (fun s => (s.port 1).btn.z) (exec (.btnZ 1 0xfd) on) = some false ∧
    after (fun s => (s.port 1).btn.r) (exec (.btnR 1 0x04) on) = some true ∧ after (fun s => (s.port 1).btn.r) (exec (.btnR 1 0xfb) on) = some false ∧
    after (fun s => (s.port 1).btn.l) (exec (.btnL 1 0x08) on) = some true ∧ after (fun s => (s.port 1).btn.l) (exec (.btnL 1 0xf7) on) = some false := by
  decide +kernel

/-- V16: the unused bits are no button. -/
theorem test_sub1Unused : after (fun s => recordOf (s.port 0)) (exec (.sub1Unused 0 0xF0) on) = some rec0 := by decide +kernel

/-- V20, V21, V22: `AxisStep(raw, cmax, cmin) = (k, cmax', cmin')`. -/
theorem test_axisStep : ([((0x00#8, 208#8, 48#8), (-80 : Int), 208#8, 0#8), ((49, 208, 48), -79, 208, 48), ((127, 208, 48), -1, 208, 48),
      ((128, 208, 48), 0, 208, 48), ((209, 208, 48), 80, 209, 48), ((127, 220, 40), -1, 220, 40), ((129, 220, 40), 0, 220, 40),
      ((180, 220, 40), 45, 220, 40), ((1, 255, 0), -80, 255, 0), ((254, 255, 0), 79, 255, 0), ((128, 128, 128), 0, 128, 128),
      ((129, 0, 255), 80, 129, 255), ((127, 0, 255), -80, 0, 127)].all fun v => decide (
    axisStep .floor v.1.1 { max := v.1.2.1, min := v.1.2.2 } = (v.2.1, { max := v.2.2.1, min := v.2.2.2 }))) = true := by decide +kernel

/-- V21: truncation reads one count more below the centre. -/
theorem test_axisStep_trunc : (axisStep .trunc 127 { max := 220, min := 40 }).1 = 0 ∧ (axisStep .trunc 41 { max := 220, min := 40 }).1 = -79 := by
  decide +kernel

/-- V20 by rows: raw 0, 100, 200 and 255 on the four axes. -/
theorem test_stick_rows :
    after (fun s => ((s.port 0).stick.lx, (s.port 0).cal.lx)) (exec (.stickLX 0 0x00) on) = some (0xB0, { max := 208, min := 0 }) ∧
    after (fun s => ((s.port 1).stick.ly, (s.port 1).cal.ly)) (exec (.stickLY 1 0x64) on) = some (0xE4, { max := 208, min := 48 }) ∧
    after (fun s => ((s.port 2).stick.rx, (s.port 2).cal.rx)) (exec (.stickRX 2 0xC8) on) = some (0x48, { max := 208, min := 48 }) ∧
    after (fun s => ((s.port 3).stick.ry, (s.port 3).cal.ry)) (exec (.stickRY 3 0xFF) on) = some (0x50, { max := 255, min := 48 }) := by
  decide +kernel

/-- V27, V28. -/
theorem test_trigCount :
    trigCount 28 200 27 = 0 ∧ trigCount 28 200 29 = 1 ∧ trigCount 28 200 227 = 199 ∧ trigCount 28 200 229 = 200 ∧
    trigCount 30 180 211 = 180 ∧ trigCount 0 255 255 = 255 ∧ trigCount 255 1 255 = 0 := by decide +kernel

/-- V6 by rows. -/
theorem test_trigger_rows :
    after (fun s => (s.port 0).trig) (exec (.trigL 0 0xE4) on) = some { l := 200, r := 0 } ∧
    after (fun s => (s.port 0).trig) (exec (.trigR 0 0x80) on) = some { l := 0, r := 100 } := by decide +kernel

/-- R124: the status rows and their codes. -/
theorem test_status_rows :
    after (fun s => s.cmdRsp.map responseBytes) (exec (.statusOk .command) on) = some (some [0x00]) ∧
    after (fun s => s.qryRsp.map responseBytes) (exec (.statusNotInitialized .query) on) = some (some [0x01]) ∧
    after (fun s => s.qryRsp.map responseBytes) (exec (.statusOutOfRange .query) on) = some (some [0x02]) ∧
    after (fun s => s.cmdRsp.map responseBytes) (exec (.statusBadCommand .command) on) = some (some [0x03]) := by decide

/-- P3: the text of requests and responses (R65, R66). -/
theorem test_text :
    sfOf [.b, .r] 0x80 0x1E 0x80 0x80 0xE4 0x80 = subP3 ∧
    requestText (.subframe 2 subP3) = some "SUBFRAME 2, 02 04 80 1E 80 80 E4 80" ∧ requestText (.get 0xFF) = some "GET -1" ∧
    responseText { status := .ok, data := [1] } = "-> OK active=1" := by decide +kernel

/-! ## Witnesses: states and operands that meet the hypotheses of the statements -/

/-- The state with an action about to run: `on` with the schedule saying who goes first. -/
def onTurn (a : Config.Agent) (c : List Byte) (q : List (BitVec 16)) : State :=
  { on with turns := [.agent a], cmdIn := c, qryIn := q }

/-- A state with `cal`, sticks and triggers away from their start values. -/
def onP3 : State := on.decodePort 2 subP3

/-- O1: one well-formed term per kind of place, with the ignored field and the reserved bits at their ends. -/
theorem witness_DecodeOfEncodeGivesBack : (Instr.subframe 3 subP3).wf = true ∧ (Instr.cmdReservedB5 0x20).wf = true ∧
    (Instr.cmdReservedOp 0xFF).wf = true ∧ (Instr.qryReservedB7 0x81 0xFF).wf = true ∧ (Instr.start 3).wf = true := by decide

/-- O2. -/
theorem witness_EncodeOfDecodeGivesBytes : ∃ i, decode .command [0xFF#8, 0x01] = .ok (i, [0x01]) := ⟨_, rfl⟩

/-- O3: a header of each length, and a query. -/
theorem witness_PacketLengths :
    (∃ i, decode .command [0xC0#8] = .ok (i, [])) ∧ (∃ i, decode .command (0xC2#8 :: frameV40.toList) = .ok (i, [])) ∧
    (∃ i, decode .command (0x43#8 :: subP3.toList) = .ok (i, [])) ∧ (∃ i, decode .command [0x3F#8, 0x00] = .ok (i, [0x00])) ∧
    (∃ i, decode .query [0xFF#8, 0x00] = .ok (i, [])) := ⟨⟨_, rfl⟩, ⟨_, rfl⟩, ⟨_, rfl⟩, ⟨_, rfl⟩, ⟨_, rfl⟩⟩

/-- O4: headers 04, 08 and FF, queries 02 00 and FF FF. -/
theorem witness_IllegalRequestsAnswerBadCommand :
    (∀ h ∈ [0x04#8, 0x08, 0xFF], (onCmd [h]).resetAsserted = false ∧ (onCmd [h]).mover = some .decoder ∧ (onCmd [h]).busy = false ∧
      (onCmd [h]).cmdIn = h :: [] ∧ (h.getLsbD 2 = true ∨ h.extractLsb' 3 3 ≠ 0#3)) ∧
    ((onQry 0x0002).resetAsserted = false ∧ (onQry 0x0002).mover = some .consumer ∧ (onQry 0x0002).qryIn = 0x0002#16 :: [] ∧
      (0x0002#16).extractLsb' 0 8 ≠ 0x00#8 ∧ (0x0002#16).extractLsb' 0 8 ≠ 0x01#8) := by
  refine ⟨?_, rfl, rfl, rfl, by decide, by decide⟩
  intro h hh
  simp only [List.mem_cons, List.not_mem_nil, or_false] at hh
  rcases hh with rfl | rfl | rfl <;> exact ⟨rfl, rfl, rfl, rfl, by decide⟩

/-- O6: a command, a query and a decode step. -/
theorem witness_StepRunsTheDecodedInstruction :
    ((onCmd [0x81]).resetAsserted = false ∧ (onCmd [0x81]).mover = some .decoder ∧ (onCmd [0x81]).busy = false ∧
      decode .command (onCmd [0x81]).cmdIn = .ok (.stop 2, [])) ∧
    ((onQry 0x0201).resetAsserted = false ∧ (onQry 0x0201).mover = some .consumer ∧ (onQry 0x0201).qryIn = 0x0201#16 :: [] ∧
      decode .query [(0x0201#16).extractLsb' 0 8, (0x0201#16).extractLsb' 8 8] = .ok (.isactive 2, [])) ∧
    ((onBusy 3).resetAsserted = false ∧ (onBusy 3).mover = some .decoder ∧ (onBusy 3).busy = true ∧
      decode (.frameBlock (onBusy 3).pidx) (onBusy 3).fbuf.toList = .ok (.extractP3 frameV40, [])) :=
  ⟨⟨rfl, rfl, rfl, rfl⟩, ⟨rfl, rfl, rfl, rfl⟩, ⟨rfl, rfl, rfl, rfl⟩⟩

/-- O7: nothing to do, each agent alone, and a state where both can move. -/
theorem witness_EveryInterleavingIsAStep : State.reset.mover = none ∧ (onQry 0).mover = some .consumer ∧ (onBusy 0).mover = some .decoder ∧
    ((onTurn .consumer [0x00] [0x0000]).qryIn ≠ [] ∧ (onTurn .consumer [0x00] [0x0000]).cmdIn ≠ []) := by
  refine ⟨rfl, rfl, rfl, by decide, by decide⟩

/-- O8: the state after reset. -/
theorem witness_NothingToDoWaits : State.reset.resetAsserted = false ∧ State.reset.busy = false ∧ State.reset.cmdIn = [] ∧
    State.reset.qryIn = [] := ⟨rfl, rfl, rfl, rfl⟩

/-- O9: both outcomes happen, at one byte short of a packet; START and the illegal header 0B, alone, are no short packets. -/
theorem witness_OnlyShortPacketsStop : (∃ t, step (onCmd (0x03 :: subP3.toList)) = .next t) ∧
    step (onCmd (0x03 :: subP3.toList.take 7)) = .refused (.undecodable (.shortCommand 9 8)) ∧
    step (onCmd (0xC2 :: frameV40.toList.take 36)) = .refused (.undecodable (.shortCommand 38 37)) ∧
    (0x03#8 &&& 0x3F#8 = 0x03#8) ∧ (0xC2#8 &&& 0x3F#8 = 0x02#8) ∧
    (∃ t, step (onCmd [0x00]) = .next t) ∧ (∃ t, step (onCmd [0x0B]) = .next t) :=
  ⟨⟨_, rfl⟩, rfl, rfl, rfl, rfl, ⟨_, rfl⟩, ⟨_, rfl⟩⟩

/-- O10: a step of each agent. -/
theorem witness_EveryRequestIsAnsweredOnce : (∃ t, step (onCmd [0x01]) = .next t) ∧ (onCmd [0x01]).resetAsserted = false ∧
    (∃ t, step (onQry 0x0001) = .next t) ∧ (onQry 0x0001).resetAsserted = false ∧
    (∃ t, step (onBusy 0) = .next t) ∧ (onBusy 0).resetAsserted = false := ⟨⟨_, rfl⟩, rfl, ⟨_, rfl⟩, rfl, ⟨_, rfl⟩, rfl⟩

/-- O12, O14 to O16: a session that decoded, with the channel free. -/
theorem witness_free : onP3.busy = false ∧ onP3.pidx = 0 ∧ onP3.alloc = true ∧ (∃ t, exec (.stop 0) onP3 = .next t) :=
  ⟨rfl, rfl, rfl, ⟨_, rfl⟩⟩

/-- O13: reset in the middle of a frame. -/
theorem witness_ResetAssertedGivesResetState : ({ onBusy 2 with turns := [.reset] } : State).resetAsserted = true := rfl

/-- O17: a command presented while a frame is decoded. -/
theorem witness_CommandsWaitWhileBusy : (Instr.frame 0 frameV40).place = .command ∧ ({ onBusy 1 with cmdIn := [0x00] } : State).busy = true ∧
    ∃ t, step { onBusy 1 with cmdIn := [0x00] } = .next t := ⟨rfl, rfl, ⟨_, rfl⟩⟩

/-- O16, O18, O19, O20: the channel free, with a session and without. -/
theorem witness_FrameLatches : (on.busy = false ∧ on.alloc = true) ∧ (State.reset.busy = false ∧ State.reset.alloc = false) :=
  ⟨⟨rfl, rfl⟩, ⟨rfl, rfl⟩⟩

/-- O22: the first, a middle and the last decode step. -/
theorem witness_DecodeStepOfALatchedFrame : ∀ p : PortIdx, (onBusy p).resetAsserted = false ∧ (onBusy p).mover = some .decoder ∧
    (onBusy p).busy = true := fun _ => ⟨rfl, rfl, rfl⟩

theorem witness_DecodeStepOfALatchedFrame_clauses : (onBusy 3).pidx.toNat = 3 ∧ (onBusy 2).pidx.toNat < 3 := by decide

/-- O23: a frame and a command behind it. -/
theorem witness_FrameIsFourSubframes : (onCmd (encode (.frame 1 frameV40) ++ [0x01])).alloc = true ∧
    (onCmd (encode (.frame 1 frameV40) ++ [0x01])).busy = false ∧ (onCmd (encode (.frame 1 frameV40) ++ [0x01])).qryIn = [] ∧
    (onCmd (encode (.frame 1 frameV40) ++ [0x01])).noReset ∧
    (onCmd (encode (.frame 1 frameV40) ++ [0x01])).cmdIn = encode (.frame 1 frameV40) ++ [0x01] := by
  refine ⟨rfl, rfl, rfl, ?_, rfl⟩
  simp [State.noReset, onCmd, on, State.startPorts, State.reset]

/-- O24: the frame of V40 with other bytes where they are ignored. -/
theorem witness_IgnoredFrameBytesDoNothing : ∀ j : Fin 37, j.val ≠ 0 → j.val ≠ 1 → j.val ≠ 10 → j.val ≠ 19 → j.val ≠ 28 →
    frameV40[j] = (((((frameV40.set 0 0x21).set 1 0xFF).set 10 0xAA).set 19 0x55).set 28 0xFF)[j] := by decide +kernel

/-- O25: an active sub-frame and its rows backwards. -/
theorem witness_FieldRowsInAnyOrderDecode : ¬ allZero subP3 ∧ (fieldRows 2 subP3).reverse.Perm (fieldRows 2 subP3) :=
  ⟨by decide, List.reverse_perm _⟩

/-- O20, O26, O43, O47: an active sub-frame decoded in a session. -/
theorem witness_subframe : on.busy = false ∧ on.alloc = true ∧ ¬ allZero subP3 ∧ ∃ t, exec (.subframe 2 subP3) on = .next t :=
  ⟨rfl, rfl, by decide, ⟨_, rfl⟩⟩

/-- O27: two states that agree on port 0 and the inputs only. -/
theorem witness_PortsAreIndependent : on.busy = false ∧ onP3.busy = false ∧ on.alloc = true ∧ onP3.alloc = true ∧
    on.trigOffset = onP3.trigOffset ∧ on.trigSpan = onP3.trigSpan ∧ on.port 0 = onP3.port 0 ∧ on.port 2 ≠ onP3.port 2 := by
  decide +kernel

/-- O30: two active sub-frames that differ in the unused bits only. -/
theorem witness_UnusedBitsReachNoField : on.busy = false ∧ on.alloc = true ∧ ¬ allZero (subBtn 0 0x05) ∧ ¬ allZero (subBtn 0 0xF5) ∧
    (∀ j : Fin 8, j ≠ 1 → (subBtn 0 0x05)[j] = (subBtn 0 0xF5)[j]) ∧
    ((subBtn 0 0x05)[1] &&& 0x0F#8) = ((subBtn 0 0xF5)[1] &&& 0x0F#8) := by decide

/-- O28, O31, O32: another button, axis and trigger than the row's, and another port. -/
theorem witness_row_frames : Button.z ≠ Button.a ∧ Axis.lx ≠ Axis.ry ∧ Trigger.l ≠ Trigger.r ∧ (1 : PortIdx) ≠ 0 := by decide

/-- O33: each clause at the ends of its range: 127, 128 and 129, the bounds themselves, and two bytes in order across the centre. -/
theorem witness_AxisStepFacts : (128#8).toNat = 128 ∧ 128 < (129#8).toNat ∧ (127#8).toNat < 128 ∧
    (128 < (208#8).toNat ∧ Cal.init.max.toNat ≤ (208#8).toNat) ∧ ((48#8).toNat < 128 ∧ (48#8).toNat ≤ Cal.init.min.toNat) ∧
    (127#8).toNat ≤ (128#8).toNat := by decide

/-- O35: both arms: a step size of 0 (the unreachable pair of V25) and one that is not. -/
theorem witness_StickValueIsTheSourceFormula : |(boundAfter 128 128 128 : ℚ) - 128| / 80 = 0 ∧
    |(boundAfter 200 208 48 : ℚ) - 128| / 80 ≠ 0 := by
  norm_num [boundAfter, maxAfter, minAfter]

/-- O36: the smallest span. -/
theorem witness_TriggerValueIsTheSourceFormula : (1#8) ≠ 0#8 := by decide

/-- O37: the offset, offset + span, and between. -/
theorem witness_TriggerCorners : (28#8).toNat ≤ (28#8).toNat ∧ (28#8).toNat + (200#8).toNat ≤ (228#8).toNat ∧
    ((28#8).toNat ≤ (29#8).toNat ∧ (29#8).toNat ≤ (28#8).toNat + (200#8).toNat) := by decide

/-- O38: a numerator below zero that the divisor does not divide, and one it does. -/
theorem witness_RoundingsDifferByOne : (0 : ℤ) < 88 ∧ ((-80 : ℤ) < 0 ∧ ¬ (88 : ℤ) ∣ -80) ∧ (88 : ℤ) ∣ -7040 := by decide

/-- O39, O40: the first and the last port, one active and one not. -/
theorem witness_queries : onP3.alloc = true ∧ (0#8).toInt = ((0#2 : PortIdx).toNat : ℤ) ∧ (3#8).toInt = ((3#2 : PortIdx).toNat : ℤ) ∧
    ¬ allZero (onP3.port 2).raw ∧ allZero (onP3.port 3).raw := by decide +kernel

/-- O41: no session, and the two indices next to the range. -/
theorem witness_FailingQueriesReturnNoData : State.reset.alloc = false ∧ onP3.alloc = true ∧
    ((4#8).toInt < 0 ∨ 3 < (4#8).toInt) ∧ ((0xFF#8).toInt < 0 ∨ 3 < (0xFF#8).toInt) := by decide

/-- O42: a button of each byte, and bits 4 and 1 at the ends of the clauses. -/
theorem witness_RecordLayout : buttonByteIndex .up = 0 ∧ buttonByteIndex .l = 1 := by decide

/-- O44: the channel free, in a session and outside one. -/
theorem witness_ReservedCommandRowsAnswerBadCommand : on.busy = false ∧ State.reset.busy = false := ⟨rfl, rfl⟩

/-- O49: a state of the invariant, and a step from it. -/
theorem witness_EveryStepKeepsTheInvariant : (onCmd [0x00]).Inv ∧ ∃ t, step (onCmd [0x00]) = .next t := by
  refine ⟨⟨fun p => ?_, fun _ => rfl, fun _ => rfl⟩, ⟨_, rfl⟩⟩
  have h : (onCmd [0x00]).port p = Port.init := initAll_getElem p
  rw [h]
  refine ⟨fun ax => ?_, fun ax => ?_, fun t => ?_⟩
  · cases ax <;> decide
  · cases ax <;> decide
  · cases t <;> decide

/-- O50, O52, O53: a START over a learned calibration, and a FRAME. -/
theorem witness_steps : (∃ t, step { onP3 with cmdIn := [0x00] } = .next t) ∧
    (∃ t, step (onCmd (0x02 :: frameV40.toList)) = .next t) ∧ (onCmd (0x02 :: frameV40.toList)).resetAsserted = false :=
  ⟨⟨_, rfl⟩, ⟨_, rfl⟩, rfl⟩

/-- O51: a query while a frame is decoded. -/
theorem witness_QueriesWriteNothing : ({ onBusy 2 with qryIn := [0x0000], turns := [.agent .consumer] } : State).resetAsserted = false ∧
    ({ onBusy 2 with qryIn := [0x0000], turns := [.agent .consumer] } : State).mover = some .consumer ∧
    ∃ t, step { onBusy 2 with qryIn := [0x0000], turns := [.agent .consumer] } = .next t := ⟨rfl, rfl, ⟨_, rfl⟩⟩

/-- O54: a frame before its first and before its last port, with two queries presented. -/
theorem witness_PendingFrameEnds : ∀ p : PortIdx, ({ onBusy p with qryIn := [0x0000, 0x0001] } : State).busy = true ∧
    ({ onBusy p with qryIn := [0x0000, 0x0001] } : State).noReset := by
  intro p
  refine ⟨rfl, ?_⟩
  simp [State.noReset, onBusy, on, State.startPorts, State.reset]

/-- O55: a STOP with and without a query before it, both runs at their end. -/
theorem witness_FinalStateIgnoresQueriesAndOrder : ∃ t t',
    sameDecoderView (onTurn .consumer [0x01] [0x0000]) (onTurn .decoder [0x01] []) ∧
    (onTurn .consumer [0x01] [0x0000]).noReset ∧ (onTurn .decoder [0x01] []).noReset ∧
    Host.Core.run Sys2Proof.core 2 (onTurn .consumer [0x01] [0x0000]) = .next t ∧
    Host.Core.run Sys2Proof.core 1 (onTurn .decoder [0x01] []) = .next t' ∧ t.quiescent ∧ t'.quiescent := by
  refine ⟨_, _, ⟨⟨rfl, rfl, rfl, rfl, rfl⟩, rfl, rfl, rfl⟩, ?_, ?_, rfl, rfl, ⟨rfl, rfl, rfl⟩, ⟨rfl, rfl, rfl⟩⟩
  · simp [State.noReset, onTurn]
  · simp [State.noReset, onTurn]

end Sys2Proof.Tests
end

/-! # The state of GCFD: reset columns, inputs, outputs, and the invariant of 10 R30

The shape of the development: what a step does to one port slot is said once (`step_slot`), and so is what it does to the
sequencer's registers (`step_sequencerRest`); the invariant and the widening of calibrations follow from these two. -/

namespace Sys2Proof.Machine

/-! ## Instructions on an accepting state -/

/-- START accepted (R114). -/
theorem exec_start_free (u : BitVec 2) (s : State) (hb : s.busy = false) :
    exec (.start u) s = .next (s.startPorts.respond .command .ok []) :=
  congrArg Host.Outcome.next (accept_free s _ hb)

/-- SUBFRAME accepted in a session (R71). -/
theorem exec_subframe_on (p : PortIdx) (sf : SubFrame) (s : State) (hb : s.busy = false) (ha : s.alloc = true) :
    exec (.subframe p sf) s = .next ((s.decodePort p sf).respond .command .ok []) :=
  congrArg Host.Outcome.next ((accept_free s _ hb).trans (needPorts_on s _ ha))

/-! ## What the sequencer and a decode step leave alone -/

@[simp] theorem State.advance_alloc (s : State) (p : PortIdx) : (s.advance p).alloc = s.alloc := by rw [advance_frame]
@[simp] theorem State.advance_trigOffset (s : State) (p : PortIdx) : (s.advance p).trigOffset = s.trigOffset := by
  rw [advance_frame]
@[simp] theorem State.advance_trigSpan (s : State) (p : PortIdx) : (s.advance p).trigSpan = s.trigSpan := by
  rw [advance_frame]

/-- A pending frame keeps the channel, or its last port frees it with `pidx` back at 0 (R69). -/
theorem advance_free_pidx (s : State) (p : PortIdx) (hb : s.busy = true) (hf : (s.advance p).busy = false) :
    (s.advance p).pidx = 0 := by
  unfold State.advance at hf ⊢
  split at hf
  next hp => rw [if_pos hp]; rfl
  next => exact absurd (hb.symm.trans hf) (by decide)

@[simp] theorem dstepState_alloc (s : State) : (dstepState s).alloc = s.alloc := by simp [dstepState]
@[simp] theorem dstepState_trigOffset (s : State) : (dstepState s).trigOffset = s.trigOffset := by simp [dstepState]
@[simp] theorem dstepState_trigSpan (s : State) : (dstepState s).trigSpan = s.trigSpan := by simp [dstepState]
@[simp] theorem dstepState_port (s : State) (p : PortIdx) :
    (dstepState s).port p = (s.beginStep.decodePort s.pidx (subOfFrame s.fbuf s.pidx)).port p := by simp [dstepState]

/-! ## The start slot and a decoded slot -/

/-- The start values of a slot (R28, R29). -/
theorem Port.init_isStart : Port.init.isStart := by
  refine ⟨fun n => ?_, fun ax => ?_, fun t => ?_, by decide, fun ax => ?_⟩
  · cases n <;> rfl
  · cases ax <;> rfl
  · cases t <;> rfl
  · cases ax <;> exact ⟨rfl, rfl⟩

theorem Port.inRange_of_isStart (span : Byte) (po : Port) (h : po.isStart) : po.inRange span := by
  obtain ⟨-, hstick, htrig, -, hcal⟩ := h
  refine ⟨fun ax => ?_, fun ax => ?_, fun t => ?_⟩
  · have := hcal ax
    omega
  · have := hstick ax
    omega
  · have := htrig t
    omega

theorem Port.init_inRange (span : Byte) : Port.init.inRange span := Port.inRange_of_isStart span _ Port.init_isStart

theorem calWidens_refl (po : Port) : calWidens po po := fun _ => ⟨le_rfl, le_rfl⟩

theorem le_maxAfter (raw cmax : Nat) : cmax ≤ maxAfter raw cmax := by
  unfold maxAfter
  split <;> omega

theorem minAfter_le (raw cmin : Nat) : minAfter raw cmin ≤ cmin := by
  unfold minAfter
  split <;> omega

/-- No stick byte narrows the pair of its axis (R106). -/
theorem axisRel_widens {raw k : Byte} {old new : Cal} (h : axisRel raw old k new) :
    old.max.toNat ≤ new.max.toNat ∧ new.min.toNat ≤ old.min.toNat := by
  obtain ⟨hmax, hmin, -⟩ := h
  rw [hmax, hmin]
  exact ⟨le_maxAfter _ _, minAfter_le _ _⟩

theorem calWidens_of_decodeRel {offset span : Byte} {sf : SubFrame} {old new : Port}
    (h : decodeRel offset span sf old new) : calWidens old new := by
  obtain ⟨-, hzero, hactive⟩ := h
  by_cases hz : allZero sf
  · obtain ⟨-, -, -, hcal⟩ := hzero hz
    intro ax
    rw [hcal]
    exact calWidens_refl old ax
  · obtain ⟨-, haxis, -⟩ := hactive hz
    exact fun ax => axisRel_widens (haxis ax)

theorem trigRel_le_span {offset span raw t : Byte} (h : trigRel offset span raw t) : t.toNat ≤ span.toNat := by
  unfold trigRel at h
  omega

/-- A decode keeps the ranges of R30: the calibration because it only widens, the counts because R99 and R109 bound them. -/
theorem inRange_of_decodeRel {offset span : Byte} {sf : SubFrame} {old new : Port}
    (h : decodeRel offset span sf old new) (hold : old.inRange span) : new.inRange span := by
  have hwide := calWidens_of_decodeRel h
  obtain ⟨-, hzero, hactive⟩ := h
  obtain ⟨hcal, hstick, htrig⟩ := hold
  refine ⟨fun ax => ?_, ?_⟩
  · have := hwide ax
    have := hcal ax
    omega
  · by_cases hz : allZero sf
    · obtain ⟨-, hs, ht, -⟩ := hzero hz
      rw [hs, ht]
      exact ⟨hstick, htrig⟩
    · obtain ⟨-, haxis, htr⟩ := hactive hz
      refine ⟨fun ax => ?_, fun t => trigRel_le_span (htr t)⟩
      obtain ⟨-, -, -, -, hrange⟩ := haxis ax
      exact hrange

/-- `active` of a slot is that its latched sub-frame is not all zero (R21). -/
theorem Port.active_iff (po : Port) : po.active = true ↔ ∃ j : Fin 8, po.raw[j] ≠ 0#8 := by
  rw [Port.active, Bool.not_eq_true', ← Bool.not_eq_true, subIsZero_iff, not_forall]

/-! ## What a step does to one slot -/

/-- The next step is hardware reset or the acceptance of START. -/
def State.reinitialises (s : State) : Prop :=
  s.resetAsserted = true ∨
    (s.busy = false ∧ s.mover = some .decoder ∧ ∃ u rest, decode .command s.cmdIn = .ok (.start u, rest))

/-- A step leaves a slot as it is, decodes a sub-frame into it, or is hardware reset or START and leaves the start slot. -/
theorem step_slot (s t : State) (p : PortIdx) (h : step s = .next t) :
    t.port p = s.port p ∨
    (∃ sf, decodeRel s.trigOffset s.trigSpan sf (s.port p) (t.port p)) ∨
    (t.port p = Port.init ∧ s.reinitialises) := by
  rcases step_cases s t h with ⟨hr, rfl⟩ | ⟨-, -, rfl⟩ | ⟨-, -, q, qs, -, he⟩ | ⟨-, -, -, rfl⟩ |
      ⟨-, hm, hb, i, rest, hd, he⟩
  case inl => exact .inr (.inr ⟨s.hardReset_port p, .inl hr⟩)
  case inr.inl => exact .inl (s.beginStep_port p)
  case inr.inr.inl =>
    left
    rw [exec_query_frame _ _ _ _ he]
    rfl
  case inr.inr.inr.inl =>
    rw [dstepState_port]
    rcases decodePort_cases s.beginStep s.pidx p (subOfFrame s.fbuf s.pidx) with ⟨-, hdec⟩ | ⟨-, hsame⟩
    · exact .inr (.inl ⟨_, hdec⟩)
    · exact .inl hsame
  case inr.inr.inr.inr =>
    rcases exec_command_cases i (s.beginStep.consume .command rest) t (place_of_decodeCommand _ _ _ hd) hb he with
        ⟨u, rfl, rfl⟩ | ⟨u, -, rfl⟩ | ⟨u, f, -, -, rfl⟩ | ⟨r, sf, -, -, rfl⟩ | ⟨⟨c, rfl⟩, -⟩
    · exact .inr (.inr ⟨initAll_getElem p, .inr ⟨hb, hm, u, rest, hd⟩⟩)
    · exact .inl rfl
    · exact .inl rfl
    · rw [State.respond_port]
      rcases decodePort_cases (s.beginStep.consume .command rest) r p sf with ⟨-, hdec⟩ | ⟨-, hsame⟩
      · exact .inr (.inl ⟨sf, hdec⟩)
      · exact .inl hsame
    · exact .inl rfl

/-! ## What a step does to the inputs and to the sequencer -/

theorem step_inputs (s t : State) (h : step s = .next t) : t.trigOffset = s.trigOffset ∧ t.trigSpan = s.trigSpan := by
  rcases step_cases s t h with ⟨-, rfl⟩ | ⟨-, -, rfl⟩ | ⟨-, -, q, qs, -, he⟩ | ⟨-, -, -, rfl⟩ |
      ⟨-, -, hb, i, rest, hd, he⟩
  case inl => exact ⟨rfl, rfl⟩
  case inr.inl => exact ⟨rfl, rfl⟩
  case inr.inr.inl =>
    rw [exec_query_frame _ _ _ _ he]
    exact ⟨rfl, rfl⟩
  case inr.inr.inr.inl => exact ⟨dstepState_trigOffset s, dstepState_trigSpan s⟩
  case inr.inr.inr.inr =>
    rcases exec_command_cases i (s.beginStep.consume .command rest) t (place_of_decodeCommand _ _ _ hd) hb he with
        ⟨u, -, rfl⟩ | ⟨u, -, rfl⟩ | ⟨u, f, -, -, rfl⟩ | ⟨r, sf, -, -, rfl⟩ | ⟨⟨c, rfl⟩, -⟩
    all_goals exact ⟨rfl, rfl⟩

/-- The part of R30 about the sequencer: `pidx` is 0 at rest, and no frame is pending outside a session. -/
def State.sequencerRest (s : State) : Prop := (s.busy = false → s.pidx = 0) ∧ (s.alloc = false → s.busy = false)

theorem inv_iff (s : State) : s.Inv ↔ (∀ p, (s.port p).inRange s.trigSpan) ∧ s.sequencerRest := Iff.rfl

theorem dstepState_sequencerRest (s : State) (hb : s.busy = true) (hs : s.sequencerRest) :
    (dstepState s).sequencerRest := by
  refine ⟨advance_free_pidx _ _ hb, fun ha => ?_⟩
  rw [dstepState_alloc] at ha
  exact absurd (hb.symm.trans (hs.2 ha)) (by decide)

theorem step_sequencerRest (s t : State) (hs : s.sequencerRest) (h : step s = .next t) : t.sequencerRest := by
  obtain ⟨hrest, hsession⟩ := hs
  rcases step_cases s t h with ⟨-, rfl⟩ | ⟨-, -, rfl⟩ | ⟨-, -, q, qs, -, he⟩ | ⟨-, -, hb, rfl⟩ |
      ⟨-, -, hb, i, rest, hd, he⟩
  case inl => exact ⟨fun _ => rfl, fun _ => rfl⟩
  case inr.inl => exact ⟨hrest, hsession⟩
  case inr.inr.inl =>
    rw [exec_query_frame _ _ _ _ he]
    exact ⟨hrest, hsession⟩
  case inr.inr.inr.inl => exact dstepState_sequencerRest s hb ⟨hrest, hsession⟩
  case inr.inr.inr.inr =>
    rcases exec_command_cases i (s.beginStep.consume .command rest) t (place_of_decodeCommand _ _ _ hd) hb he with
        ⟨u, -, rfl⟩ | ⟨u, -, rfl⟩ | ⟨u, f, -, ha, rfl⟩ | ⟨r, sf, -, -, rfl⟩ | ⟨⟨c, rfl⟩, -⟩
    · exact ⟨hrest, fun _ => hb⟩
    · exact ⟨hrest, fun _ => hb⟩
    · exact ⟨fun _ => rfl, fun hoff => absurd (ha.symm.trans hoff) (by decide)⟩
    · exact ⟨hrest, hsession⟩
    · exact ⟨hrest, hsession⟩

/-! ## The obligations of 10_state -/

/-- Settles O49: the slots through `step_slot`, the sequencer through `step_sequencerRest`. -/
theorem everyStepKeepsTheInvariant : Obligations.EveryStepKeepsTheInvariant := by
  intro s t hinv h
  obtain ⟨hslots, hseq⟩ := (inv_iff s).mp hinv
  refine (inv_iff t).mpr ⟨fun p => ?_, step_sequencerRest s t hseq h⟩
  rw [(step_inputs s t h).2]
  rcases step_slot s t p h with hsame | ⟨sf, hdec⟩ | ⟨hinit, -⟩
  · rw [hsame]
    exact hslots p
  · exact inRange_of_decodeRel hdec (hslots p)
  · rw [hinit]
    exact Port.init_inRange _

/-- Settles O50: of the three things `step_slot` allows, only the start slot can narrow a pair. -/
theorem onlyStartNarrowsCalibration : Obligations.OnlyStartNarrowsCalibration := by
  intro s t p h
  rcases step_slot s t p h with hsame | ⟨sf, hdec⟩ | ⟨hinit, hre⟩
  · rw [hsame]
    exact .inl (calWidens_refl _)
  · exact .inl (calWidens_of_decodeRel hdec)
  · rw [hinit]
    exact .inr ⟨Port.init_isStart, hre⟩

/-- Settles O52. -/
theorem noStepWritesTheInputs : Obligations.NoStepWritesTheInputs := step_inputs

/-- The two output fields replaced (log 4). -/
def State.withOutputs (s : State) (a b : Option Response) : State := { s with cmdRsp := a, qryRsp := b }

theorem withOutputs_resetAsserted (s : State) (a b : Option Response) :
    (s.withOutputs a b).resetAsserted = s.resetAsserted := rfl

theorem withOutputs_hardReset (s : State) (a b : Option Response) : (s.withOutputs a b).hardReset = s.hardReset := rfl

theorem withOutputs_fetch (s : State) (a b : Option Response) : (s.withOutputs a b).fetch = s.fetch := rfl

theorem withOutputs_beginStep (s : State) (a b : Option Response) : (s.withOutputs a b).beginStep = s.beginStep := rfl

/-- Settles O11: neither reset nor the fetch looks at the outputs, and an instruction runs on a state whose outputs are cleared. -/
theorem outputsAreNeverRead : Obligations.OutputsAreNeverRead := by
  intro s a b
  change step (s.withOutputs a b) = step s
  unfold step
  rw [withOutputs_resetAsserted, withOutputs_hardReset, withOutputs_fetch, withOutputs_beginStep]

/-- Settles O12: both columns fill every slot with `Port.init`. -/
theorem resetAndStartColumns : Obligations.ResetAndStartColumns := by
  refine ⟨⟨rfl, rfl, rfl, fun j => by simp [State.reset], fun p => ?_⟩, fun u s hb hp => ?_⟩
  · rw [State.reset_port]
    exact Port.init_isStart
  · refine ⟨_, exec_start_free u s hb, rfl, hb, hp, rfl, fun p => ?_⟩
    rw [State.respond_port, State.startPorts_port]
    exact Port.init_isStart

/-- Settles O47: the raw latch of `decodeSub_spec`, then what `active` says of it. -/
theorem activeFollowsTheLastSubframe : Obligations.ActiveFollowsTheLastSubframe := by
  intro p sf s t hb ha h
  rw [exec_subframe_on p sf s hb ha, Host.Outcome.next.injEq] at h
  obtain ⟨hlatch, -⟩ := decodeSub_spec (s.port p) s.trigOffset s.trigSpan sf
  have hraw : (t.port p).raw = sf := by
    rw [← h, State.respond_port, State.decodePort_port_self, hlatch]
  exact ⟨hraw, by rw [Port.active_iff, hraw]⟩

/-- Settles O48. -/
theorem resetHasTheInvariant : Obligations.ResetHasTheInvariant := by
  refine (inv_iff _).mpr ⟨fun p => ?_, fun _ => rfl, fun _ => rfl⟩
  rw [State.reset_port]
  exact Port.init_inRange _

end Sys2Proof.Machine

/-! # Memory: a repeated decode, a consumer's step, and the latched frame (20_memory)

A decode overwrites every field by a function of the sub-frame, but for the calibration, which it reads; so that it is idempotent
turns on AxisStep alone: the pair a stick byte leaves takes the same byte without moving (`axisStep_axisStep`). -/

namespace Sys2Proof.Machine

/-! ## A slot is its named registers -/

theorem Buttons.ext_get {bs cs : Buttons} (h : ∀ n, bs.get n = cs.get n) : bs = cs := by
  obtain ⟨⟩ := bs
  obtain ⟨⟩ := cs
  simp only [Buttons.mk.injEq]
  exact ⟨h .a, h .b, h .x, h .y, h .left, h .right, h .down, h .up, h .start, h .z, h .r, h .l⟩

theorem Sticks.ext_get {ss ss' : Sticks} (h : ∀ ax, ss.get ax = ss'.get ax) : ss = ss' := by
  obtain ⟨⟩ := ss
  obtain ⟨⟩ := ss'
  simp only [Sticks.mk.injEq]
  exact ⟨h .lx, h .ly, h .rx, h .ry⟩

theorem Triggers.ext_get {ts ts' : Triggers} (h : ∀ t, ts.get t = ts'.get t) : ts = ts' := by
  obtain ⟨⟩ := ts
  obtain ⟨⟩ := ts'
  simp only [Triggers.mk.injEq]
  exact ⟨h .l, h .r⟩

theorem Cals.ext_get {cs cs' : Cals} (h : ∀ ax, cs.get ax = cs'.get ax) : cs = cs' := by
  obtain ⟨⟩ := cs
  obtain ⟨⟩ := cs'
  simp only [Cals.mk.injEq]
  exact ⟨h .lx, h .ly, h .rx, h .ry⟩

theorem Port.ext_get {po po' : Port} (hbtn : ∀ n, po.btn.get n = po'.btn.get n)
    (hstick : ∀ ax, po.stick.get ax = po'.stick.get ax) (htrig : ∀ t, po.trig.get t = po'.trig.get t)
    (hraw : po.raw = po'.raw) (hcal : ∀ ax, po.cal.get ax = po'.cal.get ax) : po = po' := by
  obtain ⟨⟩ := po
  obtain ⟨⟩ := po'
  simp only [Port.mk.injEq]
  exact ⟨Buttons.ext_get hbtn, Sticks.ext_get hstick, Triggers.ext_get htrig, hraw, Cals.ext_get hcal⟩

/-! ## The registers an active sub-frame leaves -/

section DecodeActive

variable (po : Port) (offset span : Byte) (sf : SubFrame)

@[simp] theorem decodeActive_raw : (po.decodeActive offset span sf).raw = po.raw := rfl

@[simp] theorem decodeActive_btn_get (n : Button) :
    (po.decodeActive offset span sf).btn.get n = (sf[buttonByteIndex n]).getLsbD (buttonBit n) :=
  decodeButtons_get po sf n

@[simp] theorem decodeActive_stick_get (ax : Axis) : (po.decodeActive offset span sf).stick.get ax =
    BitVec.ofInt 8 (axisStep Config.stickRound sf[axisByteIndex ax] (po.cal.get ax)).1 :=
  (decodeSticks_get (po.decodeButtons sf) sf ax).1

@[simp] theorem decodeActive_cal_get (ax : Axis) : (po.decodeActive offset span sf).cal.get ax =
    (axisStep Config.stickRound sf[axisByteIndex ax] (po.cal.get ax)).2 :=
  (decodeSticks_get (po.decodeButtons sf) sf ax).2

@[simp] theorem decodeActive_trig_get (t : Trigger) : (po.decodeActive offset span sf).trig.get t =
    BitVec.ofInt 8 (trigCount offset span sf[triggerByteIndex t]) :=
  decodeTriggers_get ((po.decodeButtons sf).decodeSticks sf) offset span sf t

theorem decodeSub_of_allZero (h : allZero sf) : po.decodeSub offset span sf = po.latchRaw sf :=
  if_pos ((subIsZero_iff sf).mpr h)

theorem decodeSub_of_not_allZero (h : ¬ allZero sf) :
    po.decodeSub offset span sf = (po.latchRaw sf).decodeActive offset span sf :=
  if_neg fun hz => h ((subIsZero_iff sf).mp hz)

end DecodeActive

/-! ## The same byte, the same sub-frame, a second time -/

theorem axisMax_axisMax (raw cmax : Byte) : axisMax raw (axisMax raw cmax) = axisMax raw cmax := by
  apply BitVec.eq_of_toNat_eq
  simp only [axisMax_toNat, maxAfter]
  split <;> omega

theorem axisMin_axisMin (raw cmin : Byte) : axisMin raw (axisMin raw cmin) = axisMin raw cmin := by
  apply BitVec.eq_of_toNat_eq
  simp only [axisMin_toNat, minAfter]
  split <;> omega

/-- The bound a count is taken against is the updated one (R96), which the same byte does not move. -/
theorem axisBound_of_updated (raw cmax cmin : Byte) :
    axisBound raw (axisMax raw cmax) (axisMin raw cmin) = axisBound raw cmax cmin := by
  simp only [axisBound, axisMax_axisMax, axisMin_axisMin]

theorem axisStep_axisStep (rnd : Config.Rounding) (raw : Byte) (c : Cal) :
    axisStep rnd raw (axisStep rnd raw c).2 = axisStep rnd raw c := by
  simp only [axisStep, axisBound_of_updated, axisMax_axisMax, axisMin_axisMin]

theorem decodeSub_decodeSub (po : Port) (offset span : Byte) (sf : SubFrame) :
    (po.decodeSub offset span sf).decodeSub offset span sf = po.decodeSub offset span sf := by
  by_cases hz : allZero sf
  · simp only [decodeSub_of_allZero _ _ _ _ hz]
    rfl
  · simp only [decodeSub_of_not_allZero _ _ _ _ hz]
    refine Port.ext_get (fun n => ?_) (fun ax => ?_) (fun t => ?_) ?_ (fun ax => ?_)
    · simp
    · simp [axisStep_axisStep]
    · simp
    · simp
    · simp [axisStep_axisStep]

theorem modifyPort_modifyPort (s : State) (p : PortIdx) (f g : Port → Port) :
    (s.modifyPort p f).modifyPort p g = s.modifyPort p (fun po => g (f po)) := by
  simp [State.modifyPort, State.port]

theorem decodePort_decodePort (s : State) (p : PortIdx) (sf : SubFrame) :
    (s.decodePort p sf).decodePort p sf = s.decodePort p sf := by
  simp only [State.decodePort, State.modifyPort_trigOffset, State.modifyPort_trigSpan, modifyPort_modifyPort,
    decodeSub_decodeSub]

theorem decodePort_respond (s : State) (p : PortIdx) (sf : SubFrame) (ch : Channel) (st : Status) (data : List Byte) :
    (s.respond ch st data).decodePort p sf = (s.decodePort p sf).respond ch st data := by
  cases ch <;> rfl

/-- A channel's output holds the last response only (R59). -/
theorem respond_command_respond_command (s : State) (st st' : Status) (data data' : List Byte) :
    (s.respond .command st data).respond .command st' data' = s.respond .command st' data' := rfl

/-- Settles O26: the second SUBFRAME decodes a slot that already is the decode, and answers the same OK. -/
theorem decodeTwiceIsDecodeOnce : Obligations.DecodeTwiceIsDecodeOnce := by
  intro p sf s t hb ha h
  rw [exec_subframe_on p sf s hb ha, Host.Outcome.next.injEq] at h
  subst h
  rw [exec_subframe_on p sf ((s.decodePort p sf).respond .command .ok []) hb ha, decodePort_respond, decodePort_decodePort,
    respond_command_respond_command]

/-! ## A step of the consumer -/

/-- A step of the consumer spends its turn, takes the query it answers, and writes its response only (R117, R118). -/
theorem step_consumer (s t : State) (hm : s.mover = some .consumer) (hr : s.resetAsserted = false) (h : step s = .next t) :
    t = { s.beginStep with qryIn := s.qryIn.tail, qryRsp := t.qryRsp } := by
  rcases step_cases s t h with ⟨hr', -⟩ | ⟨-, hm', -⟩ | ⟨-, -, q, qs, hq, he⟩ | ⟨-, hm', -⟩ | ⟨-, hm', -⟩
  case inr.inr.inl =>
    rw [hq]
    exact exec_query_frame _ _ _ _ he
  case inl => exact absurd (hr.symm.trans hr') (by decide)
  all_goals exact absurd (hm.symm.trans hm') (by decide)

/-- Settles O51: nothing of the decoder's view is among the fields `step_consumer` leaves open. -/
theorem queriesWriteNothing : Obligations.QueriesWriteNothing := by
  intro s t hr hm h
  rw [step_consumer s t hm hr h]
  exact ⟨⟨⟨rfl, rfl, rfl, rfl, rfl⟩, rfl, rfl, rfl⟩, rfl⟩

/-! ## The latched frame -/

@[simp] theorem State.advance_fbuf (s : State) (p : PortIdx) : (s.advance p).fbuf = s.fbuf := by rw [advance_frame]

@[simp] theorem dstepState_fbuf (s : State) : (dstepState s).fbuf = s.fbuf := by simp [dstepState]

/-- Settles O53: of all steps, only the acceptance of FRAME in a session writes `fbuf`; the decode steps read it. -/
theorem latchedFrameIsStable : Obligations.LatchedFrameIsStable := by
  intro s t h hr
  rcases step_cases s t h with ⟨hr', -⟩ | ⟨-, -, rfl⟩ | ⟨-, hm, -⟩ | ⟨-, -, -, rfl⟩ | ⟨-, -, hb, i, rest, hd, he⟩
  case inl => exact absurd (hr.symm.trans hr') (by decide)
  case inr.inl => exact .inl rfl
  case inr.inr.inl =>
    rw [step_consumer s t hm hr h]
    exact .inl rfl
  case inr.inr.inr.inl => exact .inl (dstepState_fbuf s)
  case inr.inr.inr.inr =>
    rcases exec_command_cases i { s.beginStep with cmdIn := rest } t (place_of_decodeCommand _ _ _ hd) hb he with
        ⟨u, -, rfl⟩ | ⟨u, -, rfl⟩ | ⟨u, f, rfl, ha, rfl⟩ | ⟨p, sf, -, -, rfl⟩ | ⟨⟨c, rfl⟩, -⟩
    case inr.inr.inl => exact .inr ⟨hb, ha, u, rest, hd⟩
    all_goals exact .inl rfl

end Sys2Proof.Machine

/-! # Encoding: the two round trips, packet lengths, illegal requests, ignored bytes and the GET record (30_encoding)

The round trips are proved place by place: what an instruction of a place encodes to decodes to it (`decodeCommand_encode`, …), and
what decodes in a place is well-formed, stands there and encodes to the bytes read (`decodeCommand_sound`, …). Both turn on the bits
of one byte: a legal header is two fields around clear reserved bits, and an operation byte with no reserved bit is 00 or 01. How
long a packet is, and which queries are illegal, is then read off the encoder. -/

namespace Sys2Proof.Machine

/-! ## The bits of a header and of an operation byte -/

/-- A legal header bit by bit: `op`, three clear bits, the field on top (R54). -/
theorem header_getLsbD (hi : BitVec 2) (op : BitVec 3) (k : Nat) :
    (header hi op).getLsbD k = if k < 3 then op.getLsbD k else if k < 6 then false else hi.getLsbD (k - 6) := by
  simp only [header, BitVec.getLsbD_append, BitVec.getLsbD_zero, Nat.sub_sub]
  by_cases h3 : k < 3
  · simp [h3]
  · have h6 : k - 3 < 3 ↔ k < 6 := by omega
    simp [h3, h6]

@[simp] theorem header_getElem (hi : BitVec 2) (op : BitVec 3) (k : Nat) (hk : k < 8) :
    (header hi op)[k] = if k < 3 then op.getLsbD k else if k < 6 then false else hi.getLsbD (k - 6) :=
  header_getLsbD hi op k

@[simp] theorem header_extractLsb' (hi : BitVec 2) (op : BitVec 3) : (header hi op).extractLsb' 6 2 = hi := by
  apply BitVec.eq_of_getLsbD_eq
  intro k hk
  have h3 : ¬ 6 + k < 3 := by omega
  simp [header_getLsbD, hk, h3]

@[simp] theorem bitsClear_zero (b : Byte) (lo : Nat) : bitsClear b lo 0 = true := rfl

@[simp] theorem bitsClear_succ (b : Byte) (lo n : Nat) :
    bitsClear b lo (n + 1) = (bitsClear b lo n && (decide (n < lo) || !b.getLsbD n)) := by
  simp [bitsClear, List.range_succ]

theorem bitsClear_iff {b : Byte} {lo n : Nat} :
    bitsClear b lo n = true ↔ ∀ k, lo ≤ k → k < n → b.getLsbD k = false := by
  simp only [bitsClear, List.all_eq_true, List.mem_range, Bool.or_eq_true, decide_eq_true_eq, Bool.not_eq_true']
  grind

theorem bitsClear_self (b : Byte) (lo : Nat) : bitsClear b lo lo = true :=
  bitsClear_iff.mpr fun _ _ _ => by omega

/-- The next bit tested and found clear. -/
theorem bitsClear_snoc {b : Byte} {lo n : Nat} (hc : bitsClear b lo n = true) (hn : ¬ b.getLsbD n = true) :
    bitsClear b lo (n + 1) = true := by
  simp only [bitsClear_succ, hc, hn, Bool.not_false, Bool.or_true, Bool.and_true]

/-- A byte whose bits 5:2 are clear is the header of its own fields (R54, R63). -/
theorem header_of_bits {h : Byte} (op : BitVec 3) (hc : bitsClear h 2 6 = true) (h0 : h.getLsbD 0 = op.getLsbD 0)
    (h1 : h.getLsbD 1 = op.getLsbD 1) (h2 : op.getLsbD 2 = false) : header (h.extractLsb' 6 2) op = h := by
  have hc := bitsClear_iff.mp hc
  apply BitVec.eq_of_getLsbD_eq
  intro k hk
  rw [header_getLsbD]
  split
  next =>
    obtain rfl | rfl | rfl : k = 0 ∨ k = 1 ∨ k = 2 := by omega
    exacts [h0.symm, h1.symm, h2.trans (hc 2 (by decide) (by decide)).symm]
  next =>
    split
    next => exact (hc k (by omega) (by omega)).symm
    next =>
      have hfield : k - 6 < 2 := by omega
      have hsum : 6 + (k - 6) = k := by omega
      simp [hfield, hsum]

theorem bitAt_getLsbD (v : Bool) (i k : Nat) : (bitAt v i).getLsbD k = (v && decide (k < 8 ∧ k = i)) := by
  cases v
  · simp [bitAt]
  · simp only [bitAt, if_true, BitVec.getLsbD_shiftLeft, BitVec.getLsbD_one, Bool.true_and]
    grind

@[simp] theorem bitAt_getElem (v : Bool) (i k : Nat) (hk : k < 8) : (bitAt v i)[k] = (v && decide (k = i)) := by
  rw [← BitVec.getLsbD_eq_getElem, bitAt_getLsbD]
  simp [hk]

/-- An operation byte with no reserved bit is its bit 0 (R57, R63). -/
theorem bitAt_of_bits {b : Byte} (hc : bitsClear b 1 8 = true) : bitAt (b.getLsbD 0) 0 = b := by
  apply BitVec.eq_of_getLsbD_eq
  intro k hk
  rw [bitAt_getLsbD]
  rcases Nat.eq_zero_or_pos k with rfl | hpos
  · simp
  · rw [bitsClear_iff.mp hc k hpos hk]
    simp [hpos.ne']

/-! ## From an instruction to its bytes and back -/

theorem decodeCommand_encode (i : Instr) (rest : List Byte) (hp : i.place = .command) (hwf : i.wf = true) :
    decodeCommand (encode i ++ rest) = .ok (i, rest) := by
  cases i <;> simp only [Instr.place, reduceCtorEq] at hp
  case start u => simp [encode, decodeCommand]
  case stop u => simp [encode, decodeCommand]
  case frame u f => simp [encode, decodeCommand, takeBytes_append]
  case subframe p sf => simp [encode, decodeCommand, takeBytes_append]
  all_goals
    simp [Instr.wf, cmdOpReserved] at hwf
    simp [encode, decodeCommand, hwf]

theorem decodeQuery_encode (i : Instr) (rest : List Byte) (hp : i.place = .query) (hwf : i.wf = true) :
    decodeQuery (encode i ++ rest) = .ok (i, rest) := by
  cases i <;> simp only [Instr.place, reduceCtorEq] at hp
  case get q1 => rfl
  case isactive q1 => rfl
  all_goals
    simp [Instr.wf] at hwf
    simp [encode, decodeQuery, decodeQueryBytes, hwf]

theorem decodeFrameBlock_encode (p : PortIdx) (i : Instr) (rest : List Byte) (hp : i.place = .frameBlock p) :
    decodeFrameBlock p (encode i ++ rest) = .ok (i, rest) := by
  cases i <;> simp only [Instr.place, reduceCtorEq, Place.frameBlock.injEq] at hp <;> subst hp <;>
    simp [encode, decodeFrameBlock, takeBytes_append, extractRow]

theorem decodeField_encode (p : PortIdx) (f : Field) (i : Instr) (rest : List Byte) (hp : i.place = .field p f) :
    decodeField p f (encode i ++ rest) = .ok (i, rest) := by
  cases i <;> simp only [Instr.place, reduceCtorEq, Place.field.injEq] at hp <;> obtain ⟨rfl, rfl⟩ := hp <;> rfl

theorem decodeStatus_encode (ch : Channel) (i : Instr) (rest : List Byte) (hp : i.place = .response ch) :
    decodeStatus ch (encode i ++ rest) = .ok (i, rest) := by
  cases i <;> simp only [Instr.place, reduceCtorEq, Place.response.injEq] at hp <;> subst hp <;> rfl

/-- Settles O1: one lemma per place. -/
theorem decodeOfEncodeGivesBack : Obligations.DecodeOfEncodeGivesBack := by
  intro i rest hwf
  cases hp : i.place with
  | command => exact decodeCommand_encode i rest hp hwf
  | query => exact decodeQuery_encode i rest hp hwf
  | frameBlock p => exact decodeFrameBlock_encode p i rest hp
  | field p f => exact decodeField_encode p f i rest hp
  | response ch => exact decodeStatus_encode ch i rest hp

/-! ## From bytes to an instruction and back -/

/-- `i` is a reading of bytes that stood in `pl`: well-formed, of that place, and encoded by those bytes. -/
def readsAs (pl : Place) (l rest : List Byte) (i : Instr) : Prop :=
  i.wf = true ∧ i.place = pl ∧ encode i ++ rest = l

theorem decodeCommand_sound (l rest : List Byte) (i : Instr) (hd : decodeCommand l = .ok (i, rest)) :
    readsAs .command l rest i := by
  obtain _ | ⟨h, l⟩ := l
  · cases hd
  rw [decodeCommand] at hd
  split at hd <;> rename_i h2
  · cases hd
    exact ⟨h2, rfl, rfl⟩
  have c2 := bitsClear_snoc (bitsClear_self h 2) h2
  split at hd <;> rename_i h3
  · cases hd
    exact ⟨Bool.and_intro h3 c2, rfl, rfl⟩
  have c3 := bitsClear_snoc c2 h3
  split at hd <;> rename_i h4
  · cases hd
    exact ⟨Bool.and_intro h4 c3, rfl, rfl⟩
  have c4 := bitsClear_snoc c3 h4
  split at hd <;> rename_i h5
  · cases hd
    exact ⟨Bool.and_intro h5 c4, rfl, rfl⟩
  have hc := bitsClear_snoc c4 h5
  dsimp only at hd
  split at hd <;> rename_i h1 h0
  · cases hd
    exact ⟨rfl, rfl, congrArg (· :: rest) (header_of_bits 0#3 hc h0 h1 rfl)⟩
  · cases hd
    exact ⟨rfl, rfl, congrArg (· :: rest) (header_of_bits 1#3 hc h0 h1 rfl)⟩
  · split at hd
    next f rest' ht =>
      cases hd
      exact ⟨rfl, rfl, congrArg₂ (· :: ·) (header_of_bits 2#3 hc h0 h1 rfl) (takeBytes_some ht)⟩
    next => cases hd
  · split at hd
    next sf rest' ht =>
      cases hd
      exact ⟨rfl, rfl, congrArg₂ (· :: ·) (header_of_bits 3#3 hc h0 h1 rfl) (takeBytes_some ht)⟩
    next => cases hd

theorem decodeQueryBytes_sound (q0 q1 : Byte) (rest : List Byte) :
    readsAs .query (q0 :: q1 :: rest) rest (decodeQueryBytes q0 q1) := by
  unfold decodeQueryBytes
  split <;> rename_i h1
  · exact ⟨h1, rfl, rfl⟩
  have c1 := bitsClear_snoc (bitsClear_self q0 1) h1
  split <;> rename_i h2
  · exact ⟨Bool.and_intro h2 c1, rfl, rfl⟩
  have c2 := bitsClear_snoc c1 h2
  split <;> rename_i h3
  · exact ⟨Bool.and_intro h3 c2, rfl, rfl⟩
  have c3 := bitsClear_snoc c2 h3
  split <;> rename_i h4
  · exact ⟨Bool.and_intro h4 c3, rfl, rfl⟩
  have c4 := bitsClear_snoc c3 h4
  split <;> rename_i h5
  · exact ⟨Bool.and_intro h5 c4, rfl, rfl⟩
  have c5 := bitsClear_snoc c4 h5
  split <;> rename_i h6
  · exact ⟨Bool.and_intro h6 c5, rfl, rfl⟩
  have c6 := bitsClear_snoc c5 h6
  split <;> rename_i h7
  · exact ⟨Bool.and_intro h7 c6, rfl, rfl⟩
  have hq0 := bitAt_of_bits (bitsClear_snoc c6 h7)
  split <;> rename_i h0
  · rw [h0] at hq0
    exact ⟨rfl, rfl, congrArg (· :: q1 :: rest) hq0⟩
  · rw [Bool.not_eq_true] at h0
    rw [h0] at hq0
    exact ⟨rfl, rfl, congrArg (· :: q1 :: rest) hq0⟩

theorem decodeQuery_sound (l rest : List Byte) (i : Instr) (hd : decodeQuery l = .ok (i, rest)) :
    readsAs .query l rest i := by
  obtain _ | ⟨q0, _ | ⟨q1, l⟩⟩ := l
  · cases hd
  · cases hd
  · cases hd
    exact decodeQueryBytes_sound q0 q1 rest

theorem extractRow_readsAs (p : PortIdx) (f : Frame) (rest : List Byte) :
    readsAs (.frameBlock p) (f.toList ++ rest) rest (extractRow p f) := by
  obtain rfl | rfl | rfl | rfl : p = 0 ∨ p = 1 ∨ p = 2 ∨ p = 3 := by revert p; decide
  all_goals exact ⟨rfl, rfl, rfl⟩

theorem decodeFrameBlock_sound (p : PortIdx) (l rest : List Byte) (i : Instr)
    (hd : decodeFrameBlock p l = .ok (i, rest)) : readsAs (.frameBlock p) l rest i := by
  unfold decodeFrameBlock at hd
  split at hd
  next f rest' ht =>
    cases hd
    rw [← takeBytes_some ht]
    exact extractRow_readsAs p f rest
  next => cases hd

theorem decodeField_sound (p : PortIdx) (f : Field) (l rest : List Byte) (i : Instr)
    (hd : decodeField p f l = .ok (i, rest)) : readsAs (.field p f) l rest i := by
  obtain _ | ⟨v, l⟩ := l
  · cases hd
  · cases hd
    cases f <;> exact ⟨rfl, rfl, rfl⟩

theorem decodeStatus_sound (ch : Channel) (l rest : List Byte) (i : Instr)
    (hd : decodeStatus ch l = .ok (i, rest)) : readsAs (.response ch) l rest i := by
  obtain _ | ⟨b, l⟩ := l
  · cases hd
  rw [decodeStatus] at hd
  split at hd
  next hb => cases hd; exact ⟨rfl, rfl, by rw [hb]; rfl⟩
  split at hd
  next hb => cases hd; exact ⟨rfl, rfl, by rw [hb]; rfl⟩
  split at hd
  next hb => cases hd; exact ⟨rfl, rfl, by rw [hb]; rfl⟩
  split at hd
  next hb => cases hd; exact ⟨rfl, rfl, by rw [hb]; rfl⟩
  next => cases hd

theorem decode_sound (pl : Place) (l rest : List Byte) (i : Instr) (hd : decode pl l = .ok (i, rest)) :
    readsAs pl l rest i := by
  cases pl with
  | command => exact decodeCommand_sound l rest i hd
  | query => exact decodeQuery_sound l rest i hd
  | frameBlock p => exact decodeFrameBlock_sound p l rest i hd
  | field p f => exact decodeField_sound p f l rest i hd
  | response ch => exact decodeStatus_sound ch l rest i hd

/-- Settles O2: one lemma per place. -/
theorem encodeOfDecodeGivesBytes : Obligations.EncodeOfDecodeGivesBytes := decode_sound

/-! ## Written words and packet lengths -/

/-- Settles O5: each word is what the instruction encodes to, and O1 reads it back. -/
theorem writtenWordsDecode : Obligations.WrittenWordsDecode :=
  ⟨decodeOfEncodeGivesBack (.start 0) [] rfl,
   decodeOfEncodeGivesBack (.stop 2) [] rfl,
   decodeOfEncodeGivesBack (.subframe 2 #v[2, 4, 0x80, 0x1E, 0x80, 0x80, 0xE4, 0x80]) [] rfl,
   decodeOfEncodeGivesBack (.cmdReservedOp 0x05) [] rfl,
   decodeOfEncodeGivesBack (.get 0xFF) [] rfl,
   decodeOfEncodeGivesBack (.isactive 2) [] rfl,
   decodeOfEncodeGivesBack (.btnUp 1 0x80) [] rfl,
   decodeOfEncodeGivesBack (.statusOutOfRange .query) [] rfl⟩

theorem header_and_reserved (hi : BitVec 2) (op : BitVec 3) (hop : op.getLsbD 2 = false) : header hi op &&& 0x3C#8 = 0#8 := by
  revert hi op
  decide

theorem header_and_op (hi : BitVec 2) (op : BitVec 3) : header hi op &&& 3#8 = (op &&& 3#3).setWidth 8 := by
  revert hi op
  decide

theorem and_reserved_ne_zero {h : Byte} (k : Nat) (hk : (0x3C#8).getLsbD k = true) (hbit : h.getLsbD k = true) :
    h &&& 0x3C#8 ≠ 0#8 := by
  intro hz
  have hand := congrArg (·.getLsbD k) hz
  simp only [BitVec.getLsbD_and, hbit, hk, BitVec.getLsbD_zero, Bool.and_self, Bool.true_eq_false] at hand

/-- The length of a command is read off the header its encoding begins with (R64). -/
theorem encode_length_of_command (i : Instr) (h : Byte) (l rest : List Byte) (hi : readsAs .command (h :: l) rest i) :
    (encode i).length =
      if h &&& 0x3C#8 ≠ 0#8 then 1 else if h &&& 3#8 = 2#8 then 38 else if h &&& 3#8 = 3#8 then 9 else 1 := by
  obtain ⟨hwf, hp, hbytes⟩ := hi
  cases i <;> simp only [Instr.place, reduceCtorEq] at hp <;> obtain ⟨rfl, -⟩ := List.cons.inj hbytes
  case start u => simp [header_and_reserved, header_and_op, encode]
  case stop u => simp [header_and_reserved, header_and_op, encode]
  case frame u f => simp [header_and_reserved, header_and_op, encode]
  case subframe p sf => simp [header_and_reserved, header_and_op, encode]
  case cmdReservedOp => exact (if_pos (and_reserved_ne_zero 2 rfl hwf)).symm
  case cmdReservedB3 => exact (if_pos (and_reserved_ne_zero 3 rfl (Bool.and_elim_left hwf))).symm
  case cmdReservedB4 => exact (if_pos (and_reserved_ne_zero 4 rfl (Bool.and_elim_left hwf))).symm
  case cmdReservedB5 => exact (if_pos (and_reserved_ne_zero 5 rfl (Bool.and_elim_left hwf))).symm

/-- Settles O3: by O2 the bytes consumed are the encoding of what was read. -/
theorem packetLengths : Obligations.PacketLengths := by
  constructor
  · intro h l rest i hd
    have hi : readsAs .command (h :: l) rest i := decode_sound _ _ _ _ hd
    have ⟨_, _, hbytes⟩ := hi
    rw [← encode_length_of_command i h l rest hi, ← hbytes, List.length_append, Nat.add_comm]
  · intro l rest i hd
    obtain _ | ⟨q0, _ | ⟨q1, l⟩⟩ := l
    · cases hd
    · cases hd
    · cases hd
      rfl

/-! ## Illegal requests -/

theorem badCommand_free (s : State) (hb : s.busy = false) :
    s.badCommand = { s with cmdRsp := some { status := .badCommand, data := [] } } := accept_free s _ hb

theorem badQuery_eq (s : State) : s.badQuery = { s with qryRsp := some { status := .badCommand, data := [] } } := rfl

/-- Settles O44. -/
theorem reservedCommandRowsAnswerBadCommand : Obligations.ReservedCommandRowsAnswerBadCommand := by
  intro h s hb
  rw [← badCommand_free s hb]
  exact ⟨_, rfl, rfl, rfl, rfl, rfl⟩

/-- Settles O45. -/
theorem reservedQueryRowsAnswerBadCommand : Obligations.ReservedQueryRowsAnswerBadCommand := by
  intro q0 q1 s
  rw [← badQuery_eq s]
  exact ⟨_, rfl, rfl, rfl, rfl, rfl, rfl, rfl, rfl⟩

/-- An illegal header is read alone, as a row that answers BadCommand (R63). -/
theorem decodeCommand_illegal (h : Byte) (rest : List Byte) (hill : h.getLsbD 2 = true ∨ h.extractLsb' 3 3 ≠ 0#3) :
    ∃ i, decodeCommand (h :: rest) = .ok (i, rest) ∧ ∀ s, exec i s = .next s.badCommand := by
  rw [decodeCommand]
  split <;> rename_i h2
  · exact ⟨_, rfl, fun _ => rfl⟩
  split <;> rename_i h3
  · exact ⟨_, rfl, fun _ => rfl⟩
  split <;> rename_i h4
  · exact ⟨_, rfl, fun _ => rfl⟩
  split <;> rename_i h5
  · exact ⟨_, rfl, fun _ => rfl⟩
  rw [Bool.not_eq_true] at h3 h4 h5
  refine absurd ?_ (hill.resolve_left h2)
  apply BitVec.eq_of_getLsbD_eq
  intro k hk
  obtain rfl | rfl | rfl : k = 0 ∨ k = 1 ∨ k = 2 := by omega
  all_goals simp only [BitVec.getLsbD_extractLsb', BitVec.getLsbD_zero, Nat.reduceAdd, h3, h4, h5, Bool.and_false]

/-- A row of the query channel is GET, ISACTIVE or answers BadCommand (R63). -/
theorem exec_query_cases (i : Instr) (hp : i.place = .query) :
    (∃ q1, i = .get q1) ∨ (∃ q1, i = .isactive q1) ∨ ∀ s, exec i s = .next s.badQuery := by
  cases i <;> simp only [Instr.place, reduceCtorEq] at hp
  case get q1 => exact .inl ⟨q1, rfl⟩
  case isactive q1 => exact .inr (.inl ⟨q1, rfl⟩)
  all_goals exact .inr (.inr fun _ => rfl)

/-- GET and ISACTIVE encode to operation bytes 00 and 01, so by O2 no other byte reads as one of them. -/
theorem exec_decodeQueryBytes_illegal (q0 q1 : Byte) (s : State) (h0 : q0 ≠ 0x00#8) (h1 : q0 ≠ 0x01#8) :
    exec (decodeQueryBytes q0 q1) s = .next s.badQuery := by
  obtain ⟨-, hp, hbytes⟩ := decodeQueryBytes_sound q0 q1 []
  rcases exec_query_cases _ hp with ⟨v, hv⟩ | ⟨v, hv⟩ | hbad
  · rw [hv] at hbytes
    exact absurd (List.cons.inj hbytes).1.symm h0
  · rw [hv] at hbytes
    exact absurd (List.cons.inj hbytes).1.symm h1
  · exact hbad s

/-- A step of the decoder with the channel free runs the command at its head (R67). -/
theorem step_of_command (s : State) (i : Instr) (rest : List Byte) (hr : s.resetAsserted = false)
    (hm : s.mover = some .decoder) (hb : s.busy = false) (hd : decodeCommand s.cmdIn = .ok (i, rest)) :
    step s = exec i { s.beginStep with cmdIn := rest } := by
  have hfetch : s.fetch = some (.command, s.cmdIn) := by simp [State.fetch, hm, hb]
  simp [step, hr, hfetch, decode, hd, retire, State.consume]

/-- A step of the consumer runs the query at the head of its channel (R117). -/
theorem step_of_query (s : State) (q : BitVec 16) (qs : List (BitVec 16)) (hr : s.resetAsserted = false)
    (hm : s.mover = some .consumer) (hq : s.qryIn = q :: qs) :
    step s = exec (decodeQueryBytes (q.extractLsb' 0 8) (q.extractLsb' 8 8)) { s.beginStep with qryIn := qs } := by
  have hfetch : s.fetch = some (.query, queryBytes q) := by simp [State.fetch, hm, hq]
  simp [step, hr, hfetch, decode, queryBytes, decodeQuery, retire, State.consume, hq]

/-- Settles O4: the step runs a row that answers BadCommand, on a state with the packet consumed. -/
theorem illegalRequestsAnswerBadCommand : Obligations.IllegalRequestsAnswerBadCommand := by
  constructor
  · intro s h rest hr hm hb hin hill
    obtain ⟨i, hd, hexec⟩ := decodeCommand_illegal h rest hill
    rw [← hin] at hd
    have hstep := (step_of_command s i rest hr hm hb hd).trans (hexec _)
    rw [badCommand_free _ (by exact hb)] at hstep
    exact ⟨_, hstep, ⟨rfl, rfl, rfl, rfl, rfl⟩, rfl, rfl, rfl, rfl⟩
  · intro s q qs hr hm hin h0 h1
    have hstep := (step_of_query s q qs hr hm hin).trans (exec_decodeQueryBytes_illegal _ _ _ h0 h1)
    exact ⟨_, _, hstep, ⟨rfl, rfl, rfl, rfl, rfl⟩, rfl, rfl, rfl, rfl, rfl⟩

/-! ## The ignored bytes of a frame -/

/-- The two frames agree on every byte that is not ignored (R62). -/
def agreeOnBlocks (f g : Frame) : Prop :=
  ∀ j : Fin 37, j.val ≠ 0 → j.val ≠ 1 → j.val ≠ 10 → j.val ≠ 19 → j.val ≠ 28 → f[j] = g[j]

/-- No byte of a block is at 0, 1, 10, 19 or 28: the block of port `p` is 2 + 9p to 9 + 9p (R33). -/
theorem frameByte_congr {f g : Frame} (h : agreeOnBlocks f g) (p : PortIdx) (j : Fin Config.subLen) :
    frameByte f p j = frameByte g p j := by
  have hp := p.isLt
  have hj : j.val < 8 := j.isLt
  exact h ⟨2 + 9 * p.toNat + j.val, by omega⟩ (by dsimp only; omega) (by dsimp only; omega) (by dsimp only; omega)
    (by dsimp only; omega) (by dsimp only; omega)

theorem exec_extractRow_congr {f g : Frame} (h : agreeOnBlocks f g) (p : PortIdx) (s : State) :
    exec (extractRow p f) s = exec (extractRow p g) s := by
  simp only [exec_extractRow, subOfFrame, frameByte_congr h]

/-- Settles O24: each extractor row is `extractRow` of its port. -/
theorem ignoredFrameBytesDoNothing : Obligations.IgnoredFrameBytesDoNothing := fun _ _ h s =>
  ⟨exec_extractRow_congr h 0 s, exec_extractRow_congr h 1 s, exec_extractRow_congr h 2 s, exec_extractRow_congr h 3 s⟩

/-! ## The GET record -/

theorem recButtonsLow_getLsbD (bs : Buttons) (n : Button) (hn : buttonByteIndex n = 0) :
    (recButtonsLow bs).getLsbD (buttonBit n) = bs.get n := by
  cases n
  case start | z | r | l => exact absurd hn (by decide)
  all_goals simp [recButtonsLow, buttonBit, Buttons.get]

theorem recButtonsHigh_getLsbD (bs : Buttons) (n : Button) (hn : buttonByteIndex n = 1) :
    (recButtonsHigh bs).getLsbD (buttonBit n) = bs.get n := by
  cases n
  case start | z | r | l => simp [recButtonsHigh, buttonBit, Buttons.get]
  all_goals exact absurd hn (by decide)

theorem recButtonsHigh_unused (bs : Buttons) (k : Nat) (hk : 4 ≤ k) : (recButtonsHigh bs).getLsbD k = false := by
  have h0 : k ≠ 0 := by omega
  have h1 : k ≠ 1 := by omega
  have h2 : k ≠ 2 := by omega
  have h3 : k ≠ 3 := by omega
  simp [recButtonsHigh, bitAt_getLsbD, h0, h1, h2, h3]

theorem subFrame_toList (sf : SubFrame) : sf.toList = [sf[0], sf[1], sf[2], sf[3], sf[4], sf[5], sf[6], sf[7]] := by
  obtain ⟨⟨l⟩, hl⟩ := sf
  match l, hl with
  | [_, _, _, _, _, _, _, _], _ => rfl

/-- Settles O42. -/
theorem recordLayout : Obligations.RecordLayout := by
  intro po
  refine ⟨recButtonsLow po.btn, recButtonsHigh po.btn, bitAt po.active 0, ?_, recButtonsLow_getLsbD po.btn,
    recButtonsHigh_getLsbD po.btn, recButtonsHigh_unused po.btn, ?_, fun k hk => ?_⟩
  · rw [recordOf, subFrame_toList]
    rfl
  · rw [bitAt_getLsbD]
    simp [Port.active_iff]
  · have hne : k ≠ 0 := by omega
    simp [bitAt_getLsbD, hne]

theorem exists_low_button (k : Nat) (hk : k < 8) : ∃ n, buttonByteIndex n = 0 ∧ buttonBit n = k := by
  interval_cases k
  exacts [⟨.a, rfl, rfl⟩, ⟨.b, rfl, rfl⟩, ⟨.x, rfl, rfl⟩, ⟨.y, rfl, rfl⟩, ⟨.left, rfl, rfl⟩, ⟨.right, rfl, rfl⟩,
    ⟨.down, rfl, rfl⟩, ⟨.up, rfl, rfl⟩]

theorem exists_high_button (k : Nat) (hk : k < 4) : ∃ n, buttonByteIndex n = 1 ∧ buttonBit n = k := by
  interval_cases k
  exacts [⟨.start, rfl, rfl⟩, ⟨.z, rfl, rfl⟩, ⟨.r, rfl, rfl⟩, ⟨.l, rfl, rfl⟩]

/-- Record byte 0 is the byte the buttons were read from, each bit being some button's (R49, R60). -/
theorem recButtonsLow_eq {bs : Buttons} {b : Byte}
    (h : ∀ n, buttonByteIndex n = 0 → bs.get n = b.getLsbD (buttonBit n)) : recButtonsLow bs = b := by
  apply BitVec.eq_of_getLsbD_eq
  intro k hk
  obtain ⟨n, hn, rfl⟩ := exists_low_button k hk
  rw [recButtonsLow_getLsbD bs n hn, h n hn]

theorem and_lowNibble_getLsbD (b : Byte) (k : Nat) : (b &&& 0x0F#8).getLsbD k = (b.getLsbD k && decide (k < 4)) := by
  rw [BitVec.getLsbD_and]
  rcases Nat.lt_or_ge k 8 with hk | hk
  · interval_cases k <;> rfl
  · simp [BitVec.getLsbD_of_ge _ k hk]

/-- Record byte 1 is the byte the buttons were read from, less its unused bits 7:4 (R50, R60). -/
theorem recButtonsHigh_eq {bs : Buttons} {b : Byte}
    (h : ∀ n, buttonByteIndex n = 1 → bs.get n = b.getLsbD (buttonBit n)) : recButtonsHigh bs = b &&& 0x0F#8 := by
  apply BitVec.eq_of_getLsbD_eq
  intro k _
  rw [and_lowNibble_getLsbD]
  rcases Nat.lt_or_ge k 4 with hk | hk
  · obtain ⟨n, hn, rfl⟩ := exists_high_button k hk
    rw [recButtonsHigh_getLsbD bs n hn, h n hn, decide_eq_true hk, Bool.and_true]
  · rw [recButtonsHigh_unused bs k hk, decide_eq_false hk.not_gt, Bool.and_false]

/-- Settles O43: an active decode leaves each button at its sub-frame bit, and the record puts it back there. -/
theorem recordEchoesTheButtonBytes : Obligations.RecordEchoesTheButtonBytes := by
  intro p sf s t hb ha hactive h
  rw [exec_subframe_on p sf s hb ha, Host.Outcome.next.injEq] at h
  obtain ⟨-, -, hfields⟩ := decodeSub_spec (s.port p) s.trigOffset s.trigSpan sf
  obtain ⟨hbtn, -⟩ := hfields hactive
  rw [← h, State.respond_port, State.decodePort_port_self]
  refine ⟨congrArg some (recButtonsLow_eq fun n hn => ?_), congrArg some (recButtonsHigh_eq fun n hn => ?_)⟩
  · simp only [hbtn n, hn]
    rfl
  · simp only [hbtn n, hn]
    rfl

end Sys2Proof.Machine

/-! # Frame split and decode: who moves, what a step answers, DSTEP, and the field rows (40_frame_split_and_decode)

Everything about a pending frame rests on `step_of_dstep` and on the two shapes of `dstepState`: the last port frees the channel,
any other counts `pidx` up. The field rows commute because each writes registers of its own from registers of its own
(`RowField.write_comm`). -/

namespace Sys2Proof.Machine

/-! ## SUBFRAME and FRAME on an accepting state -/

/-- A command that needs the port slots, accepted outside a session (R126). -/
theorem accept_needPorts_off (s : State) (op : State → State) (hb : s.busy = false) (ha : s.alloc = false) :
    (s.accept fun s => s.needPorts op) = s.raiseStatus .command .notInitialized 0 :=
  (accept_free s _ hb).trans (needPorts_off s op ha)

theorem exec_subframe_off (p : PortIdx) (sf : SubFrame) (s : State) (hb : s.busy = false) (ha : s.alloc = false) :
    exec (.subframe p sf) s = .next (s.raiseStatus .command .notInitialized 0) :=
  congrArg Host.Outcome.next (accept_needPorts_off s _ hb ha)

theorem exec_frame_off (u : BitVec 2) (f : Frame) (s : State) (hb : s.busy = false) (ha : s.alloc = false) :
    exec (.frame u f) s = .next (s.raiseStatus .command .notInitialized 0) :=
  congrArg Host.Outcome.next (accept_needPorts_off s _ hb ha)

/-- FRAME accepted in a session (R68). -/
theorem exec_frame_on (u : BitVec 2) (f : Frame) (s : State) (hb : s.busy = false) (ha : s.alloc = true) :
    exec (.frame u f) s = .next (s.latchFrame f) :=
  congrArg Host.Outcome.next ((accept_free s _ hb).trans (needPorts_on s _ ha))

/-- A command's meaning while a frame is pending (R67; log 15). -/
theorem exec_command_busy (i : Instr) (s : State) (hp : i.place = .command) (hb : s.busy = true) : exec i s = .next s := by
  cases i <;> simp only [Instr.place, reduceCtorEq] at hp
  all_goals exact congrArg Host.Outcome.next (accept_busy s _ hb)

/-- An answered SUBFRAME leaves the other slots alone (R77). -/
theorem respond_decodePort_port_ne (s : State) {p q : PortIdx} (sf : SubFrame) (ch : Channel) (st : Status) (data : List Byte)
    (hq : q ≠ p) : ((s.decodePort p sf).respond ch st data).port q = s.port q := by
  rw [State.respond_port, State.decodePort_port_ne _ _ _ _ hq]

/-- Settles O18: `accept` and `needPorts` pass, or `needPorts` raises. -/
theorem frameLatches : Obligations.FrameLatches := ⟨exec_frame_on, exec_frame_off⟩

/-- Settles O20: the slot through `decodeSub_spec`. -/
theorem subframeDecodesIntoItsPort : Obligations.SubframeDecodesIntoItsPort := by
  refine ⟨fun p sf s hb ha => ⟨_, exec_subframe_on p sf s hb ha, ?_, fun q => respond_decodePort_port_ne s sf _ _ _, rfl⟩,
    exec_subframe_off⟩
  rw [State.respond_port, State.decodePort_port_self]
  exact decodeSub_spec _ _ _ _

/-- Settles O27: the decoded slot is `decodeSub` of the old slot and the inputs, which the two states share. -/
theorem portsAreIndependent : Obligations.PortsAreIndependent := by
  intro p sf s s' hb hb' ha ha' hoffset hspan hport
  refine ⟨_, _, exec_subframe_on p sf s hb ha, exec_subframe_on p sf s' hb' ha', ?_,
    fun q => respond_decodePort_port_ne s sf _ _ _, fun q => respond_decodePort_port_ne s' sf _ _ _⟩
  simp only [State.respond_port, State.decodePort_port_self, hoffset, hspan, hport]

/-! ## The extractor -/

/-- The extractor reads frame byte `2 + 9p + j` (R33, R75). -/
theorem subOfFrame_getElem (f : Frame) (p : PortIdx) (j : Fin 8) :
    f.toList[2 + 9 * p.toNat + j.val]? = some (subOfFrame f p)[j] := by
  have hbyte : (subOfFrame f p)[j] = frameByte f p j := by fin_cases j <;> rfl
  have hp := p.isLt
  have hlen : 2 + 9 * p.toNat + j.val < f.toList.length := by
    rw [Vector.length_toList]
    omega
  rw [hbyte, List.getElem?_eq_getElem hlen, Vector.getElem_toList]
  rfl

theorem extractsTo_extractRow (p : PortIdx) : extractsTo (extractRow p) p := by
  intro f s
  refine ⟨_, subOfFrame f p, exec_extractRow p f s, subOfFrame_getElem f p, ?_, rfl,
    fun q hq => State.decodePort_port_ne _ _ _ _ hq⟩
  rw [State.decodePort_port_self]
  exact decodeSub_spec _ _ _ _

/-- Settles O21: each extractor row is `extractRow` of its port. -/
theorem extractRowsRouteTheirBlock : Obligations.ExtractRowsRouteTheirBlock :=
  ⟨extractsTo_extractRow 0, extractsTo_extractRow 1, extractsTo_extractRow 2, extractsTo_extractRow 3⟩

/-! ## The sequencer and the decode step -/

/-- After the last port: the channel is free and the FRAME answered (R69). -/
theorem advance_last {s : State} {p : PortIdx} (hp : p = 3) :
    s.advance p = { s with busy := false, pidx := 0, cmdRsp := some { status := .ok, data := [] } } := if_pos hp

/-- After any other port: the next one (R69). -/
theorem advance_next {s : State} {p : PortIdx} (hp : p ≠ 3) : s.advance p = { s with pidx := p + 1 } := if_neg hp

@[simp] theorem dstepState_cmdIn (s : State) : (dstepState s).cmdIn = s.cmdIn := by rw [dstepState, advance_frame]; rfl
@[simp] theorem dstepState_qryIn (s : State) : (dstepState s).qryIn = s.qryIn := by rw [dstepState, advance_frame]; rfl
@[simp] theorem dstepState_turns (s : State) : (dstepState s).turns = s.turns.tail := by rw [dstepState, advance_frame]; rfl
@[simp] theorem dstepState_qryRsp (s : State) : (dstepState s).qryRsp = none := by rw [dstepState, advance_frame]; rfl
@[simp] theorem dstepState_ports (s : State) :
    (dstepState s).ports = (s.decodePort s.pidx (subOfFrame s.fbuf s.pidx)).ports := by rw [dstepState, advance_frame]; rfl

theorem dstepState_last {s : State} (hp : s.pidx = 3) : (dstepState s).busy = false ∧ (dstepState s).pidx = 0 ∧
    (dstepState s).cmdRsp = some { status := .ok, data := [] } := by
  rw [dstepState, advance_last hp]
  exact ⟨rfl, rfl, rfl⟩

theorem dstepState_next {s : State} (hp : s.pidx ≠ 3) : (dstepState s).busy = s.busy ∧ (dstepState s).pidx = s.pidx + 1 ∧
    (dstepState s).cmdRsp = none := by
  rw [dstepState, advance_next hp]
  exact ⟨rfl, rfl, rfl⟩

theorem toNat_succ_of_ne_last {p : PortIdx} (hp : p ≠ 3) : (p + 1).toNat = p.toNat + 1 := by
  revert p
  decide

/-- A step of the decoder while a frame is pending is the decode step (R69). -/
theorem step_of_dstep (s : State) (hr : s.resetAsserted = false) (hm : s.mover = some .decoder) (hb : s.busy = true) :
    step s = .next (dstepState s) := by
  have hfetch : s.fetch = some (.frameBlock s.pidx, s.fbuf.toList) := by simp [State.fetch, hm, hb]
  simp [step, hr, hfetch, decode, decodeFrameBlock_frame, exec_extractRow, retire, State.consume, dstepState]

/-- Settles O22: `dstepState`, whose two shapes are the two last clauses. -/
theorem decodeStepOfALatchedFrame : Obligations.DecodeStepOfALatchedFrame := by
  intro s hr hm hb
  refine ⟨dstepState s, subOfFrame s.fbuf s.pidx, step_of_dstep s hr hm hb, subOfFrame_getElem s.fbuf s.pidx, ?_,
    fun q hq => ?_, dstepState_alloc s, dstepState_fbuf s, dstepState_cmdIn s, dstepState_qryIn s, dstepState_qryRsp s,
    fun hlast => dstepState_last (BitVec.eq_of_toNat_eq hlast), fun hlt => ?_⟩
  · rw [dstepState_port, State.decodePort_port_self]
    exact decodeSub_spec _ _ _ _
  · rw [dstepState_port, State.decodePort_port_ne _ _ _ _ hq, State.beginStep_port]
  · have hp : s.pidx ≠ 3 := fun h => absurd hlt (by rw [h]; decide)
    obtain ⟨hbusy, hpidx, hrsp⟩ := dstepState_next hp
    exact ⟨hbusy.trans hb, by rw [hpidx, toNat_succ_of_ne_last hp], hrsp⟩

/-- Settles O6: each clause is the rule of its kind of step. -/
theorem stepRunsTheDecodedInstruction : Obligations.StepRunsTheDecodedInstruction := by
  refine ⟨step_of_command, fun s q qs i hr hm hq hd => ?_,
    fun s i rest hr hm hb hd => ?_⟩
  · cases hd
    exact step_of_query s q qs hr hm hq
  · have hrow : decode (.frameBlock s.pidx) s.fbuf.toList = .ok (extractRow s.pidx s.fbuf, []) :=
      decodeFrameBlock_frame s.pidx s.fbuf
    cases hrow.symm.trans hd
    exact ⟨_, exec_extractRow s.pidx s.fbuf s.beginStep, step_of_dstep s hr hm hb⟩

/-! ## What a step answers -/

theorem queryWith_answers (s : State) (q1 : Byte) (n : Nat) (data : Port → List Byte) :
    (s.queryWith q1 n data).qryRsp.isSome = true := by
  unfold State.queryWith
  split
  · split <;> rfl
  · rfl

/-- Every row of the query channel answers on it. -/
theorem exec_query_answers (i : Instr) (s t : State) (hp : i.place = .query) (he : exec i s = .next t) :
    t.qryRsp.isSome = true := by
  rcases exec_query_cases i hp with ⟨q1, rfl⟩ | ⟨q1, rfl⟩ | hbad
  · cases he
    exact queryWith_answers _ _ _ _
  · cases he
    exact queryWith_answers _ _ _ _
  · rw [hbad] at he
    cases he
    rfl

/-- An accepted command answers at once, but for FRAME, which is answered by its last decode step (R68, R69). -/
theorem exec_command_answers (i : Instr) (s t : State) (hp : i.place = .command) (hb : s.busy = false)
    (hrsp : s.cmdRsp = none) (he : exec i s = .next t) :
    (t.cmdRsp.isSome = true ↔ t.busy = false) ∧ t.qryRsp = s.qryRsp := by
  rcases exec_command_cases i s t hp hb he with
      ⟨u, -, rfl⟩ | ⟨u, -, rfl⟩ | ⟨u, f, -, -, rfl⟩ | ⟨p, sf, -, -, rfl⟩ | ⟨⟨c, rfl⟩, -⟩
  case inr.inr.inl => simp [hrsp]
  all_goals exact ⟨iff_of_true rfl hb, rfl⟩

/-- A decode step answers exactly where it frees the channel (R69). -/
theorem dstepState_answers (s : State) (hb : s.busy = true) :
    (dstepState s).cmdRsp.isSome = true ↔ (dstepState s).busy = false := by
  by_cases hp : s.pidx = 3
  · obtain ⟨hbusy, -, hrsp⟩ := dstepState_last hp
    simp [hbusy, hrsp]
  · obtain ⟨hbusy, -, hrsp⟩ := dstepState_next hp
    simp [hbusy, hrsp, hb]

/-- Settles O10: `step_cases`, and for each kind of step what it answers. -/
theorem everyRequestIsAnsweredOnce : Obligations.EveryRequestIsAnsweredOnce := by
  intro s t h hr
  rcases step_cases s t h with ⟨hr', -⟩ | ⟨-, hm, rfl⟩ | ⟨-, hm, q, qs, -, he⟩ | ⟨-, hm, hb, rfl⟩ |
      ⟨-, hm, hb, i, rest, hd, he⟩
  case inl => exact absurd (hr.symm.trans hr') (by decide)
  case inr.inl => simp [hm]
  case inr.inr.inl =>
    obtain ⟨-, hplace, -⟩ := decodeQueryBytes_sound (q.extractLsb' 0 8) (q.extractLsb' 8 8) []
    have hqry := exec_query_answers _ _ t hplace he
    have hcmd : t.cmdRsp = none := by rw [exec_query_frame _ _ _ _ he]; rfl
    simp [hm, hqry, hcmd]
  case inr.inr.inr.inl => simp [hm, dstepState_answers s hb]
  case inr.inr.inr.inr =>
    have hplace := place_of_decodeCommand _ _ _ hd
    obtain ⟨hcmd, hqry⟩ := exec_command_answers i { s.beginStep with cmdIn := rest } t hplace hb rfl he
    simp [hm, hcmd, hqry]

/-- Settles O17: by `step_cases`, only the acceptance of a command takes bytes, and it needs the channel free. -/
theorem commandsWaitWhileBusy : Obligations.CommandsWaitWhileBusy := by
  refine ⟨exec_command_busy, fun s t hb h => ?_⟩
  rcases step_cases s t h with ⟨-, rfl⟩ | ⟨-, -, rfl⟩ | ⟨hr, hm, -⟩ | ⟨-, -, -, rfl⟩ | ⟨-, -, hfree, -⟩
  · rfl
  · rfl
  · rw [step_consumer s t hm hr h]
    rfl
  · exact dstepState_cmdIn s
  · exact absurd (hb.symm.trans hfree) (by decide)

/-! ## Runs of a pending frame -/

theorem resetAsserted_of_noReset {s : State} (h : s.noReset) : s.resetAsserted = false := by
  unfold State.noReset at h
  unfold State.resetAsserted
  rw [beq_eq_false_iff_ne]
  exact fun hhead => h (List.mem_of_mem_head? hhead)

/-- A step spends the head of the schedule, and what is left asserts no reset either. -/
theorem noReset_of_tail {s t : State} (hs : s.noReset) (ht : t.turns = s.turns.tail) : t.noReset := by
  unfold State.noReset
  rw [ht]
  exact fun hmem => hs (List.mem_of_mem_tail hmem)

/-- While a frame is pending the decoder moves, or the consumer to answer a presented query (R67, R120). -/
theorem mover_of_busy {s : State} (hb : s.busy = true) :
    s.mover = some .decoder ∨ (s.mover = some .consumer ∧ ∃ q qs, s.qryIn = q :: qs) := by
  have hdec : s.decoderReady = true := by simp [State.decoderReady, hb]
  rcases hq : s.qryIn with _ | ⟨q, qs⟩
  · left
    simp [State.mover, hdec, State.consumerReady, hq]
  · have hmover : s.mover = some s.favoured := by simp [State.mover, hdec, State.consumerReady, hq]
    rcases hf : s.favoured with _ | _
    · exact .inl (hmover.trans (congrArg some hf))
    · exact .inr ⟨hmover.trans (congrArg some hf), q, qs, rfl⟩

/-- The steps a pending frame can still wait for: the decode steps left and the queries presented (R69, R151). -/
def State.pendingSteps (s : State) : Nat := (4 - s.pidx.toNat) + s.qryIn.length

/-- Within `n` steps the frame is answered with OK and the channel is free, the command bytes as they were. -/
def State.endsWithin (s : State) (n : Nat) : Prop :=
  ∃ (m : Nat) (t : State), m ≤ n ∧ Host.Core.run Sys2Proof.core m s = .next t ∧
    t.busy = false ∧ t.pidx = 0 ∧ t.cmdRsp = some { status := .ok, data := [] } ∧ t.cmdIn = s.cmdIn

/-- One step that takes no command byte, before a frame's end. -/
theorem endsWithin_succ {s u : State} {n : Nat} (hstep : step s = .next u) (hcmd : u.cmdIn = s.cmdIn) (h : u.endsWithin n) :
    s.endsWithin (n + 1) := by
  obtain ⟨m, t, hm, hrun, hbusy, hpidx, hrsp, hin⟩ := h
  exact ⟨m + 1, t, Nat.succ_le_succ hm, (run_next m s u hstep).trans hrun, hbusy, hpidx, hrsp, hin.trans hcmd⟩

theorem endsWithin_mono {s : State} {m n : Nat} (h : s.endsWithin m) (hmn : m ≤ n) : s.endsWithin n := by
  obtain ⟨k, t, hk, hrest⟩ := h
  exact ⟨k, t, hk.trans hmn, hrest⟩

/-- One more step of a frame that stays pending: it takes no command byte, and there is one step less to wait for. -/
def State.pendsOn (s : State) : Prop :=
  ∃ u, step s = .next u ∧ u.cmdIn = s.cmdIn ∧ u.busy = true ∧ u.noReset ∧ u.pendingSteps + 1 = s.pendingSteps

/-- A decode step ends the frame at the last port and moves on at any other (R69). -/
theorem endsWithin_or_pendsOn_of_decoder {s : State} (hm : s.mover = some .decoder) (hb : s.busy = true) (hs : s.noReset) :
    s.endsWithin 1 ∨ s.pendsOn := by
  have hstep := step_of_dstep s (resetAsserted_of_noReset hs) hm hb
  by_cases hp : s.pidx = 3
  · obtain ⟨hbusy, hpidx, hrsp⟩ := dstepState_last hp
    exact .inl ⟨1, dstepState s, le_rfl, run_next 0 s _ hstep, hbusy, hpidx, hrsp, dstepState_cmdIn s⟩
  · obtain ⟨hbusy, hpidx, -⟩ := dstepState_next hp
    refine .inr ⟨_, hstep, dstepState_cmdIn s, hbusy.trans hb, noReset_of_tail hs (dstepState_turns s), ?_⟩
    have hcount := toNat_succ_of_ne_last hp
    have hlt := (s.pidx + 1).isLt
    simp only [State.pendingSteps, hpidx, dstepState_qryIn]
    omega

/-- A query answered while a frame is pending is one query less (R120). -/
theorem pendsOn_of_consumer {s : State} {q : BitVec 16} {qs : List (BitVec 16)} (hm : s.mover = some .consumer)
    (hq : s.qryIn = q :: qs) (hb : s.busy = true) (hs : s.noReset) : s.pendsOn := by
  have hr := resetAsserted_of_noReset hs
  obtain ⟨t, ht⟩ := exec_next (decodeQueryBytes (q.extractLsb' 0 8) (q.extractLsb' 8 8)) { s.beginStep with qryIn := qs }
  have hstep := (step_of_query s q qs hr hm hq).trans ht
  refine ⟨t, hstep, ?_⟩
  rw [exec_query_frame _ _ _ _ ht]
  refine ⟨rfl, hb, noReset_of_tail hs rfl, ?_⟩
  simp only [State.pendingSteps, State.beginStep_pidx, hq, List.length_cons]
  omega

theorem endsWithin_pendingSteps (n : Nat) (s : State) (hn : s.pendingSteps = n) (hb : s.busy = true) (hs : s.noReset) :
    s.endsWithin n := by
  induction n generalizing s with
  | zero =>
    have hlt := s.pidx.isLt
    unfold State.pendingSteps at hn
    omega
  | succ n ih =>
    have hcases : s.endsWithin 1 ∨ s.pendsOn := by
      rcases mover_of_busy hb with hm | ⟨hm, q, qs, hq⟩
      · exact endsWithin_or_pendsOn_of_decoder hm hb hs
      · exact .inr (pendsOn_of_consumer hm hq hb hs)
    rcases hcases with hend | ⟨u, hstep, hcmd, hbu, hsu, hless⟩
    · exact endsWithin_mono hend (by omega)
    · exact endsWithin_succ hstep hcmd (ih u (by omega) hbu hsu)

/-- Settles O54: every step of a pending frame ends it or leaves fewer steps to wait for. -/
theorem pendingFrameEnds : Obligations.PendingFrameEnds := fun s hb hs => endsWithin_pendingSteps _ s rfl hb hs

/-! ## A frame as four sub-frames -/

/-- The next step is the decode step of port `p`: a frame is pending there, and neither a query nor reset comes between. -/
structure State.decodesNext (s : State) (p : PortIdx) : Prop where
  busy : s.busy = true
  pidx : s.pidx = p
  noQuery : s.qryIn = []
  noReset : s.noReset

theorem step_of_decodesNext {s : State} {p : PortIdx} (h : s.decodesNext p) : step s = .next (dstepState s) := by
  refine step_of_dstep s (resetAsserted_of_noReset h.noReset) ?_ h.busy
  rcases mover_of_busy h.busy with hm | ⟨-, q, qs, hq⟩
  · exact hm
  · exact absurd (h.noQuery.symm.trans hq) (by simp)

theorem decodesNext_dstepState {s : State} {p : PortIdx} (h : s.decodesNext p) (hp : p ≠ 3) :
    (dstepState s).decodesNext (p + 1) := by
  obtain ⟨hbusy, hpidx, -⟩ := dstepState_next (h.pidx ▸ hp)
  exact ⟨hbusy.trans h.busy, by rw [hpidx, h.pidx], (dstepState_qryIn s).trans h.noQuery,
    noReset_of_tail h.noReset (dstepState_turns s)⟩

/-- All that a decode reads of a state is the same in both: the slots and the two inputs (R77). -/
def sameDecodeInput (s t : State) : Prop :=
  t.ports = s.ports ∧ t.trigOffset = s.trigOffset ∧ t.trigSpan = s.trigSpan

/-- A decode step writes what the SUBFRAME of its block writes (R70). -/
theorem sameDecodeInput_dstepState {s t : State} {p : PortIdx} (h : sameDecodeInput s t) (hp : s.pidx = p) :
    sameDecodeInput (dstepState s) ((t.decodePort p (subOfFrame s.fbuf p)).respond .command .ok []) := by
  obtain ⟨hports, hoffset, hspan⟩ := h
  subst hp
  refine ⟨?_, (dstepState_trigOffset s).symm ▸ hoffset, (dstepState_trigSpan s).symm ▸ hspan⟩
  simp only [dstepState_ports, State.respond_command_ports, State.decodePort_ports, State.port_of_ports, hports, hoffset, hspan]

/-- A run of SUBFRAMEs, one at a time. -/
theorem execAll_subframe_cons (p : PortIdx) (sf : SubFrame) (is : List Instr) (s : State) (hb : s.busy = false)
    (ha : s.alloc = true) :
    execAll (.subframe p sf :: is) s = execAll is ((s.decodePort p sf).respond .command .ok []) := by
  rw [execAll, exec_subframe_on p sf s hb ha]

/-- The four decode steps of a frame leave the slots its four SUBFRAMEs leave, and answer OK (R69, R70). -/
theorem run_pendingFrame (s u : State) (h : s.decodesNext 0) (hsame : sameDecodeInput s u) (hb : u.busy = false)
    (ha : u.alloc = true) :
    ∃ t t', Host.Core.run Sys2Proof.core 4 s = .next t ∧
      execAll [.subframe 0 (subOfFrame s.fbuf 0), .subframe 1 (subOfFrame s.fbuf 1), .subframe 2 (subOfFrame s.fbuf 2),
        .subframe 3 (subOfFrame s.fbuf 3)] u = .next t' ∧
      t.ports = t'.ports ∧ t.busy = false ∧ t.pidx = 0 ∧ t.alloc = s.alloc ∧ t.cmdIn = s.cmdIn ∧
      t.cmdRsp = some { status := .ok, data := [] } := by
  have h1 := decodesNext_dstepState h (by decide)
  have h2 := decodesNext_dstepState h1 (by decide)
  have h3 := decodesNext_dstepState h2 (by decide)
  have e1 := sameDecodeInput_dstepState hsame h.pidx
  have e2 := sameDecodeInput_dstepState e1 h1.pidx
  have e3 := sameDecodeInput_dstepState e2 h2.pidx
  obtain ⟨hports, -⟩ := sameDecodeInput_dstepState e3 h3.pidx
  simp only [dstepState_fbuf] at hports
  obtain ⟨hbusy, hpidx, hrsp⟩ := dstepState_last h3.pidx
  refine ⟨_, _, ?_, ?_, hports.symm, hbusy, hpidx, by simp, by simp, hrsp⟩
  · rw [run_next _ _ _ (step_of_decodesNext h), run_next _ _ _ (step_of_decodesNext h1),
      run_next _ _ _ (step_of_decodesNext h2), run_next _ _ _ (step_of_decodesNext h3)]
    rfl
  · rw [execAll_subframe_cons, execAll_subframe_cons, execAll_subframe_cons, execAll_subframe_cons]
    exacts [rfl, hb, ha, hb, ha, hb, ha, hb, ha]

/-- Settles O23: the acceptance of the FRAME, then `run_pendingFrame`. -/
theorem frameIsFourSubframes : Obligations.FrameIsFourSubframes := by
  intro u f rest s ha hb hq hs hin
  have hr := resetAsserted_of_noReset hs
  have hm : s.mover = some .decoder := by
    simp [State.mover, State.decoderReady, State.consumerReady, hq, hin, encode]
  have hd : decodeCommand s.cmdIn = .ok (.frame u f, rest) := by
    rw [hin]
    exact decodeCommand_encode (.frame u f) rest rfl rfl
  have hstep := (step_of_command s _ rest hr hm hb hd).trans (exec_frame_on u f { s.beginStep with cmdIn := rest } hb ha)
  have hnext : (({ s.beginStep with cmdIn := rest } : State).latchFrame f).decodesNext 0 :=
    ⟨rfl, rfl, hq, noReset_of_tail hs rfl⟩
  obtain ⟨t, t', hrun, hall, hports, hbusy, hpidx, halloc, hcmd, hrsp⟩ := run_pendingFrame _ s hnext ⟨rfl, rfl, rfl⟩ hb ha
  exact ⟨t, t', (run_next 4 s _ hstep).trans hrun, hall, hports, hbusy, hpidx, halloc.trans ha, hcmd, hrsp⟩

/-! ## The field rows in any order -/

/-- What a data row of a sub-frame is about: a button, an axis, a trigger, or the unused bits. -/
inductive RowField where
  | button (n : Button)
  | axis (ax : Axis)
  | trigger (t : Trigger)
  | unused

/-- The row over the byte of the sub-frame it stands on. -/
def RowField.row (p : PortIdx) (sf : SubFrame) : RowField → Instr
  | .button n => buttonRow n p sf[buttonByteIndex n]
  | .axis ax => stickRow ax p sf[axisByteIndex ax]
  | .trigger t => trigRow t p sf[triggerByteIndex t]
  | .unused => .sub1Unused p sf[1]

/-- What the row does to its slot. -/
def RowField.write (offset span : Byte) (sf : SubFrame) (po : Port) : RowField → Port
  | .button n => po.setButton n (btnBit sf[buttonByteIndex n] (buttonMask n))
  | .axis ax => po.stepAxis ax sf[axisByteIndex ax]
  | .trigger t => po.setTrigger offset span t sf[triggerByteIndex t]
  | .unused => po

/-- The table's order (R74). -/
def RowField.all : List RowField :=
  [.button .a, .button .b, .button .x, .button .y, .button .left, .button .right, .button .down, .button .up,
   .button .start, .button .z, .button .r, .button .l, .unused, .axis .lx, .axis .ly, .axis .rx, .axis .ry,
   .trigger .l, .trigger .r]

theorem fieldRows_eq_map (p : PortIdx) (sf : SubFrame) : fieldRows p sf = RowField.all.map (RowField.row p sf) := rfl

theorem modifyPort_id (s : State) (p : PortIdx) : s.modifyPort p (fun po => po) = s := by
  simp [State.modifyPort, State.port]

theorem exec_rowField (r : RowField) (p : PortIdx) (sf : SubFrame) (s : State) :
    exec (r.row p sf) s = .next (s.modifyPort p fun po => r.write s.trigOffset s.trigSpan sf po) := by
  cases r with
  | button n => cases n <;> rfl
  | axis ax => cases ax <;> rfl
  | trigger t => cases t <;> rfl
  | unused => exact congrArg Host.Outcome.next (modifyPort_id s p).symm

/-! ### Writes of different registers of a slot commute -/

/-- Writes of two names of a register file commute, for any file that is its registers. -/
theorem set_comm_of_get_set {α κ β : Type} {get : α → κ → β} {set : α → κ → β → α}
    (ext_get : ∀ {x y}, (∀ k, get x k = get y k) → x = y) (get_set_self : ∀ x k v, get (set x k v) k = v)
    (get_set_ne : ∀ x k n v, k ≠ n → get (set x n v) k = get x k) (x : α) {m n : κ} (h : m ≠ n) (v w : β) :
    set (set x m v) n w = set (set x n w) m v := by
  refine ext_get fun k => ?_
  by_cases hm : k = m
  · rw [hm, get_set_ne _ m n _ h, get_set_self, get_set_self]
  · by_cases hn : k = n
    · rw [hn, get_set_self, get_set_ne _ n m _ h.symm, get_set_self]
    · rw [get_set_ne _ k n _ hn, get_set_ne _ k m _ hm, get_set_ne _ k m _ hm, get_set_ne _ k n _ hn]

theorem Buttons.set_comm (bs : Buttons) {m n : Button} (h : m ≠ n) (v w : Bool) :
    (bs.set m v).set n w = (bs.set n w).set m v :=
  set_comm_of_get_set Buttons.ext_get Buttons.get_set_self Buttons.get_set_ne bs h v w

theorem Sticks.set_comm (ss : Sticks) {a b : Axis} (h : a ≠ b) (v w : Byte) :
    (ss.set a v).set b w = (ss.set b w).set a v :=
  set_comm_of_get_set Sticks.ext_get Sticks.get_set_self Sticks.get_set_ne ss h v w

theorem Cals.set_comm (cs : Cals) {a b : Axis} (h : a ≠ b) (v w : Cal) : (cs.set a v).set b w = (cs.set b w).set a v :=
  set_comm_of_get_set Cals.ext_get Cals.get_set_self Cals.get_set_ne cs h v w

theorem Triggers.set_comm (ts : Triggers) {a b : Trigger} (h : a ≠ b) (v w : Byte) :
    (ts.set a v).set b w = (ts.set b w).set a v :=
  set_comm_of_get_set Triggers.ext_get Triggers.get_set_self Triggers.get_set_ne ts h v w

theorem Port.setButton_comm (po : Port) {m n : Button} (h : m ≠ n) (v w : Bool) :
    (po.setButton m v).setButton n w = (po.setButton n w).setButton m v := by
  simp only [Port.setButton, Buttons.set_comm _ h]

/-- An axis reads its own calibration pair only (R101). -/
theorem Port.stepAxis_comm (po : Port) {a b : Axis} (h : a ≠ b) (v w : Byte) :
    (po.stepAxis a v).stepAxis b w = (po.stepAxis b w).stepAxis a v := by
  simp only [Port.stepAxis, Cals.get_set_ne _ _ _ _ h, Cals.get_set_ne _ _ _ _ h.symm, Sticks.set_comm _ h, Cals.set_comm _ h]

theorem Port.setTrigger_comm (po : Port) (offset span : Byte) {a b : Trigger} (h : a ≠ b) (v w : Byte) :
    (po.setTrigger offset span a v).setTrigger offset span b w =
      (po.setTrigger offset span b w).setTrigger offset span a v := by
  simp only [Port.setTrigger, Triggers.set_comm _ h]

/-- Any two rows of one sub-frame commute: of one kind they write different registers or are the same row, of two kinds they
write different parts of the slot. -/
theorem RowField.write_comm (offset span : Byte) (sf : SubFrame) (po : Port) (r r' : RowField) :
    r'.write offset span sf (r.write offset span sf po) = r.write offset span sf (r'.write offset span sf po) := by
  rcases eq_or_ne r r' with rfl | hne
  · rfl
  cases r with
  | button n =>
    cases r' with
    | button m => exact po.setButton_comm (fun h => hne (congrArg _ h)) _ _
    | _ => rfl
  | axis ax =>
    cases r' with
    | axis ax' => exact po.stepAxis_comm (fun h => hne (congrArg _ h)) _ _
    | _ => rfl
  | trigger t =>
    cases r' with
    | trigger t' => exact po.setTrigger_comm _ _ (fun h => hne (congrArg _ h)) _ _
    | _ => rfl
  | unused => rfl

/-! ### A run of instructions as a fold, so that permuting commuting rows is `List.Perm.foldl_eq'` -/

/-- The state after an instruction. -/
def State.after (s : State) (i : Instr) : State :=
  match exec i s with
  | .next t => t
  | _ => s

theorem after_of_exec {s t : State} {i : Instr} (h : exec i s = .next t) : s.after i = t := by simp [State.after, h]

/-- Instructions always have a next state, so a list of them runs to its end. -/
theorem execAll_eq_foldl (is : List Instr) (s : State) : execAll is s = .next (is.foldl State.after s) := by
  induction is generalizing s with
  | nil => rfl
  | cons i is ih =>
    obtain ⟨t, ht⟩ := exec_next i s
    rw [execAll, ht, List.foldl_cons, after_of_exec ht]
    exact ih t

theorem after_rowField (r : RowField) (p : PortIdx) (sf : SubFrame) (s : State) :
    s.after (r.row p sf) = s.modifyPort p (r.write s.trigOffset s.trigSpan sf) := after_of_exec (exec_rowField r p sf s)

theorem after_fieldRows_comm (p : PortIdx) (sf : SubFrame) (i : Instr) (hi : i ∈ fieldRows p sf) (j : Instr)
    (hj : j ∈ fieldRows p sf) (s : State) : (s.after i).after j = (s.after j).after i := by
  rw [fieldRows_eq_map] at hi hj
  obtain ⟨r, -, rfl⟩ := List.mem_map.mp hi
  obtain ⟨r', -, rfl⟩ := List.mem_map.mp hj
  simp only [after_rowField, State.modifyPort_trigOffset, State.modifyPort_trigSpan, modifyPort_modifyPort,
    RowField.write_comm _ _ _ _ r r']

/-- Rows of one port's sub-frame, one after another, are one write of the slot. -/
theorem foldl_after_rows (rs : List RowField) (p : PortIdx) (sf : SubFrame) (s : State) :
    (rs.map (RowField.row p sf)).foldl State.after s =
      s.modifyPort p fun po => rs.foldl (RowField.write s.trigOffset s.trigSpan sf) po := by
  induction rs generalizing s with
  | nil => exact (modifyPort_id s p).symm
  | cons r rs ih =>
    rw [List.map_cons, List.foldl_cons, after_rowField, ih, modifyPort_modifyPort]
    rfl

/-- `DecodeActive` is its field rows in the table's order (R74). -/
theorem foldl_write_all (offset span : Byte) (sf : SubFrame) (po : Port) :
    RowField.all.foldl (RowField.write offset span sf) po = po.decodeActive offset span sf := rfl

/-- Settles O25: any order runs as the table's order, which is `DecodeActive` on the latched slot. -/
theorem fieldRowsInAnyOrderDecode : Obligations.FieldRowsInAnyOrderDecode := by
  intro p sf s rows hactive hperm
  refine ⟨_, _, execAll_eq_foldl _ _, exec_subframe_on p sf { s with alloc := true, busy := false } rfl rfl, ?_⟩
  rw [← hperm.symm.foldl_eq' (after_fieldRows_comm p sf), fieldRows_eq_map, foldl_after_rows, modifyPort_modifyPort]
  simp only [foldl_write_all, State.respond_command_ports, State.decodePort, decodeSub_of_not_allZero _ _ _ _ hactive]
  rfl

end Sys2Proof.Machine

/-! # Buttons: the twelve button rows, the unused row, and the unused bits 7:4 of sub-frame byte 1 (41_buttons)

A button row is one write of one button register, so what it changes is what `Port.setButton` changes. That the unused bits reach no
decoded field is read off the registers of an active decode (`decodeActive_btn_get`, …): each of them looks at a whole byte other than
byte 1, or at one bit of a byte, which in byte 1 is one of bits 3:0. -/

namespace Sys2Proof.Machine

/-! ## The button rows -/

theorem exec_buttonRow (n : Button) (p : PortIdx) (v : Byte) (s : State) :
    exec (buttonRow n p v) s = .next (s.modifyPort p fun po => po.setButton n (btnBit v (buttonMask n))) := by
  cases n <;> rfl

theorem onlyPort_modifyPort (p : PortIdx) (s : State) (upd : Port → Port) : onlyPort p s (s.modifyPort p upd) :=
  ⟨rfl, fun q hq => State.modifyPort_port_ne s p q upd hq⟩

/-- Settles O28: the row writes its button register, and `btnBit_mask` says with which bit. -/
theorem buttonRowsWriteTheirBit : Obligations.ButtonRowsWriteTheirBit := by
  intro n p v s
  refine ⟨_, exec_buttonRow n p v s, ?_⟩
  rw [State.modifyPort_port_self]
  refine ⟨?_, fun m hm => Buttons.get_set_ne _ m n _ hm, rfl, rfl, rfl, rfl, onlyPort_modifyPort p s _⟩
  rw [Port.setButton_btn, Buttons.get_set_self, btnBit_mask]

/-- Settles O29: the row's meaning is the identity (R92; log 10). -/
theorem unusedBitsRowChangesNothing : Obligations.UnusedBitsRowChangesNothing := fun _ _ _ => rfl

/-! ## The unused bits of byte 1 -/

/-- The two sub-frames differ at most in bits 7:4 of byte 1 (R92). -/
def agreeOnUsedBits (sf sg : SubFrame) : Prop :=
  (∀ j : Fin 8, j ≠ 1 → sf[j] = sg[j]) ∧ sf[1] &&& 0x0F#8 = sg[1] &&& 0x0F#8

/-- Start, Z, R and L are the bits 3:0 of their byte (R50). -/
theorem buttonBit_lt_of_high {n : Button} (hn : buttonByteIndex n = 1) : buttonBit n < 4 := by
  cases n
  case start | z | r | l => decide
  all_goals exact absurd hn (by decide)

theorem axisByteIndex_ne_one (ax : Axis) : axisByteIndex ax ≠ 1 := by cases ax <;> decide

theorem triggerByteIndex_ne_one (t : Trigger) : triggerByteIndex t ≠ 1 := by cases t <;> decide

theorem getLsbD_eq_of_lowNibble {b c : Byte} (h : b &&& 0x0F#8 = c &&& 0x0F#8) {k : Nat} (hk : k < 4) :
    b.getLsbD k = c.getLsbD k := by
  have hbit := congrArg (·.getLsbD k) h
  simpa only [and_lowNibble_getLsbD, hk, decide_true, Bool.and_true] using hbit

/-- Every button's bit is a used one. -/
theorem buttonBit_congr {sf sg : SubFrame} (h : agreeOnUsedBits sf sg) (n : Button) :
    (sf[buttonByteIndex n]).getLsbD (buttonBit n) = (sg[buttonByteIndex n]).getLsbD (buttonBit n) := by
  obtain ⟨hbytes, hnibble⟩ := h
  by_cases hn : buttonByteIndex n = 1
  · simp only [hn]
    exact getLsbD_eq_of_lowNibble hnibble (buttonBit_lt_of_high hn)
  · rw [hbytes _ hn]

/-- Whatever the slots latch, active decodes of such sub-frames over the same calibration leave the same decoded registers. -/
theorem sameDecoded_decodeActive {sf sg : SubFrame} (h : agreeOnUsedBits sf sg) {po po' : Port} (hcal : po.cal = po'.cal)
    (offset span : Byte) : sameDecoded (po.decodeActive offset span sf) (po'.decodeActive offset span sg) := by
  have haxis : ∀ ax, sf[axisByteIndex ax] = sg[axisByteIndex ax] := fun ax => h.1 _ (axisByteIndex_ne_one ax)
  have htrig : ∀ t, sf[triggerByteIndex t] = sg[triggerByteIndex t] := fun t => h.1 _ (triggerByteIndex_ne_one t)
  refine ⟨Buttons.ext_get fun n => ?_, Sticks.ext_get fun ax => ?_, Triggers.ext_get fun t => ?_, Cals.ext_get fun ax => ?_⟩
  · simp only [decodeActive_btn_get, buttonBit_congr h n]
  · simp only [decodeActive_stick_get, haxis ax, hcal]
  · simp only [decodeActive_trig_get, htrig t]
  · simp only [decodeActive_cal_get, haxis ax, hcal]

/-- Settles O30: both sub-frames are active, so each is latched and decoded, and `sameDecoded_decodeActive` compares the decodes. -/
theorem unusedBitsReachNoField : Obligations.UnusedBitsReachNoField := by
  intro p sf sg s hb ha hf hg hbytes hnibble
  refine ⟨_, _, exec_subframe_on p sf s hb ha, exec_subframe_on p sg s hb ha, ?_⟩
  simp only [State.respond_port, State.decodePort_port_self, decodeSub_of_not_allZero _ _ _ _ hf,
    decodeSub_of_not_allZero _ _ _ _ hg]
  exact ⟨sameDecoded_decodeActive ⟨hbytes, hnibble⟩ rfl _ _, rfl, rfl⟩

end Sys2Proof.Machine

/-! # Sticks: the four stick rows and the arithmetic of AxisStep (42_sticks_calibration)

Two facts carry the arithmetic. A floored count is at least `j` exactly when `j` steps of the active bound fit into the numerator
(`le_axisCount_iff`): signs and saturation are read off it. And against one fixed bound the count is monotone in the byte
(`axisCount_mono`), where a byte that moves the bound reads full deflection; so the count is monotone from any pair. -/

namespace Sys2Proof.Machine

/-! ## The two quotients -/

/-- Settles O38: floor division by a positive divisor is Euclidean, and Mathlib compares that with truncation. -/
theorem roundingsDifferByOne : Obligations.RoundingsDifferByOne := by
  intro n d hd
  simp only [axisQuotient, truncDiv, floorDiv]
  rw [Int.tdiv_eq_ediv, Int.fdiv_eq_ediv_of_nonneg n hd.le, Int.sign_eq_one_of_pos hd]
  by_cases hn : 0 ≤ n <;> by_cases hdvd : d ∣ n <;> simp [hn, hdvd]

theorem le_floorDiv_iff {j n d : Int} (hd : 0 < d) : j ≤ floorDiv n d ↔ j * d ≤ n := by
  rw [floorDiv, Int.fdiv_eq_ediv_of_nonneg n hd.le, Int.le_ediv_iff_mul_le hd]

theorem axisQuotient_nonneg (rnd : Config.Rounding) {n d : Int} (hn : 0 ≤ n) (hd : 0 < d) : 0 ≤ axisQuotient rnd n d := by
  cases rnd with
  | floor => exact Int.fdiv_nonneg hn hd.le
  | trunc => exact Int.tdiv_nonneg hn hd.le

theorem axisQuotient_nonpos (rnd : Config.Rounding) {n d : Int} (hn : n ≤ 0) (hd : 0 < d) : axisQuotient rnd n d ≤ 0 := by
  cases rnd with
  | floor => exact (Int.fdiv_eq_ediv_of_nonneg n hd.le).trans_le (Int.ediv_nonpos_of_nonpos_of_neg hn hd)
  | trunc =>
    have h := Int.tdiv_nonneg (neg_nonneg.mpr hn) hd.le
    rw [Int.neg_tdiv] at h
    exact neg_nonneg.mp h

/-! ## The calibration pair after a byte -/

theorem axisMax_of_le_center {raw : Byte} (h : raw.toNat ≤ 128) (cmax : Byte) : axisMax raw cmax = cmax :=
  if_neg (Nat.not_lt.mpr h)

theorem axisMin_of_center_le {raw : Byte} (h : 128 ≤ raw.toNat) (cmin : Byte) : axisMin raw cmin = cmin :=
  if_neg (Nat.not_lt.mpr h)

/-- A bound that moves goes to the byte (R94). -/
theorem axisMax_eq_or (raw cmax : Byte) : axisMax raw cmax = cmax ∨ axisMax raw cmax = raw := by
  unfold axisMax
  split_ifs
  · exact .inr rfl
  · exact .inl rfl
  · exact .inl rfl

/-- A bound that moves goes to the byte (R95). -/
theorem axisMin_eq_or (raw cmin : Byte) : axisMin raw cmin = cmin ∨ axisMin raw cmin = raw := by
  unfold axisMin
  split_ifs
  · exact .inr rfl
  · exact .inl rfl
  · exact .inl rfl

/-- Above the centre, a byte short of the upper bound is measured against it (R96). -/
theorem axisBound_of_lt_max {raw cmax : Byte} (h : 128 < raw.toNat) (hmax : raw.toNat < cmax.toNat) (cmin : Byte) :
    axisBound raw cmax cmin = cmax := by
  rw [axisBound, if_pos h.le, axisMax, if_pos h, if_neg hmax.le.not_gt]

/-- Below the centre, a byte short of the lower bound is measured against it (R96). -/
theorem axisBound_of_min_lt {raw cmin : Byte} (h : raw.toNat < 128) (hmin : cmin.toNat < raw.toNat) (cmax : Byte) :
    axisBound raw cmax cmin = cmin := by
  rw [axisBound, if_neg h.not_ge, axisMin, if_pos h, if_neg hmin.le.not_gt]

/-! ## The distance of the active bound -/

theorem distAfter_above {raw : Nat} (h : 128 < raw) (cmax cmin : Nat) :
    distAfter raw cmax cmin = max (cmax : Int) raw - 128 := by
  rw [distAfter, boundAfter, if_pos h.le, maxAfter, if_pos h, abs_of_nonneg (by omega)]
  push_cast
  rfl

theorem distAfter_below {raw : Nat} (h : raw < 128) (cmax cmin : Nat) :
    distAfter raw cmax cmin = 128 - min (cmin : Int) raw := by
  rw [distAfter, boundAfter, if_neg h.not_ge, minAfter, if_pos h, abs_of_nonpos (by omega)]
  push_cast
  omega

/-- Away from the centre the step size is never 0 (R98). -/
theorem distAfter_pos {raw : Nat} (h : raw ≠ 128) (cmax cmin : Nat) : 0 < distAfter raw cmax cmin := by
  have hdisp : 0 < |(raw : Int) - 128| := abs_pos.mpr (by omega)
  exact hdisp.trans_le (raw_le_distAfter raw cmax cmin)

theorem axisDist_pos {bound : Byte} (h : axisDist bound ≠ 0) : 0 < axisDist bound := by
  unfold axisDist at h ⊢
  split_ifs at h ⊢ <;> omega

/-! ## The sign of the count, under either rounding -/

theorem axisNumerator_eq (raw : Byte) : axisNumerator raw = ((raw.toNat : Int) - 128) * 80 := rfl

theorem clamp_count (v : Int) : clamp v (-Config.resolution) Config.resolution = max (-80) (min v 80) :=
  clamp_eq v _ _ (by decide)

theorem axisCount_nonneg (rnd : Config.Rounding) {raw : Byte} (h : 128 ≤ raw.toNat) (bound : Byte) :
    0 ≤ axisCount rnd raw bound := by
  unfold axisCount
  split
  next => exact le_rfl
  next hd =>
    have hq := axisQuotient_nonneg rnd (n := axisNumerator raw) (by rw [axisNumerator_eq]; omega) (axisDist_pos hd)
    rw [clamp_count]
    omega

theorem axisCount_nonpos (rnd : Config.Rounding) {raw : Byte} (h : raw.toNat ≤ 128) (bound : Byte) :
    axisCount rnd raw bound ≤ 0 := by
  unfold axisCount
  split
  next => exact le_rfl
  next hd =>
    have hq := axisQuotient_nonpos rnd (n := axisNumerator raw) (by rw [axisNumerator_eq]; omega) (axisDist_pos hd)
    rw [clamp_count]
    omega

theorem axisCount_center (rnd : Config.Rounding) {raw : Byte} (h : raw.toNat = 128) (bound : Byte) :
    axisCount rnd raw bound = 0 :=
  le_antisymm (axisCount_nonpos rnd h.le bound) (axisCount_nonneg rnd h.ge bound)

/-! ## The floored count against the active bound -/

theorem axisStep_count (rnd : Config.Rounding) (raw : Byte) (c : Cal) :
    (axisStep rnd raw c).1 = axisCount rnd raw (axisBound raw c.max c.min) := by rw [axisStep]

/-- Away from the centre, `j` counts are reached where `j` steps of the active bound fit into the numerator (R97). -/
theorem le_axisCount_iff {raw : Byte} (h : raw.toNat ≠ 128) (cmax cmin : Byte) (j : Int) :
    j ≤ axisCount .floor raw (axisBound raw cmax cmin) ↔
      j * distAfter raw.toNat cmax.toNat cmin.toNat ≤ ((raw.toNat : Int) - 128) * 80 := by
  have hd := distAfter_pos h cmax.toNat cmin.toNat
  rw [axisCount_floor raw cmax cmin hd.ne', le_floorDiv_iff hd, axisNumerator_eq]

/-- R107 (b), below the centre. -/
theorem axisCount_le_neg_one {raw : Byte} (h : raw.toNat < 128) (cmax cmin : Byte) :
    axisCount .floor raw (axisBound raw cmax cmin) ≤ -1 := by
  have hzero := le_axisCount_iff h.ne cmax cmin 0
  omega

/-- Full deflection above the centre is a byte at or past the old upper bound (R107 (e)). -/
theorem axisCount_eq_max_iff (raw cmax cmin : Byte) :
    axisCount .floor raw (axisBound raw cmax cmin) = 80 ↔ 128 < raw.toNat ∧ cmax.toNat ≤ raw.toNat := by
  by_cases h : 128 < raw.toNat
  · have hfull := le_axisCount_iff h.ne' cmax cmin 80
    rw [distAfter_above h] at hfull
    have hrange := axisCount_range .floor raw (axisBound raw cmax cmin)
    omega
  · have hnonpos := axisCount_nonpos .floor (Nat.le_of_not_lt h) (axisBound raw cmax cmin)
    omega

/-- Full deflection below the centre: a byte at or past the old lower bound (R107 (e)). -/
theorem axisCount_eq_min {raw cmin : Byte} (h : raw.toNat < 128) (hmin : raw.toNat ≤ cmin.toNat) (cmax : Byte) :
    axisCount .floor raw (axisBound raw cmax cmin) = -80 := by
  have hstep := le_axisCount_iff h.ne cmax cmin (-79)
  rw [distAfter_below h] at hstep
  have hrange := axisCount_range .floor raw (axisBound raw cmax cmin)
  omega

/-! ## Monotonicity -/

theorem floorDiv_mono {m n d : Int} (hd : 0 < d) (h : m ≤ n) : floorDiv m d ≤ floorDiv n d :=
  (le_floorDiv_iff hd).mpr ((floorDiv_spec m d hd).1.trans h)

/-- Against one bound, a higher byte reads no less. -/
theorem axisCount_mono {r₁ r₂ : Byte} (h : r₁.toNat ≤ r₂.toNat) (bound : Byte) :
    axisCount .floor r₁ bound ≤ axisCount .floor r₂ bound := by
  unfold axisCount
  split
  next => exact le_rfl
  next hd =>
    have hq := floorDiv_mono (axisDist_pos hd) (show axisNumerator r₁ ≤ axisNumerator r₂ by simp only [axisNumerator_eq]; omega)
    simp only [clamp_count, axisQuotient]
    omega

/-- From any pair a higher byte reads no less: across the centre by the signs; on one side because either both bytes are measured
against the same bound, or the outer one reads full deflection. -/
theorem axisStep_count_mono {r₁ r₂ : Byte} (h : r₁.toNat ≤ r₂.toNat) (c : Cal) :
    (axisStep .floor r₁ c).1 ≤ (axisStep .floor r₂ c).1 := by
  simp only [axisStep_count]
  by_cases hcross : r₁.toNat ≤ 128 ∧ 128 ≤ r₂.toNat
  · exact (axisCount_nonpos _ hcross.1 _).trans (axisCount_nonneg _ hcross.2 _)
  by_cases habove : 128 < r₁.toNat
  · by_cases hmax : c.max.toNat ≤ r₂.toNat
    · rw [(axisCount_eq_max_iff r₂ c.max c.min).mpr ⟨by omega, hmax⟩]
      exact (axisCount_range _ _ _).2
    · rw [axisBound_of_lt_max habove (by omega), axisBound_of_lt_max (by omega) (by omega)]
      exact axisCount_mono h _
  · by_cases hmin : r₁.toNat ≤ c.min.toNat
    · rw [axisCount_eq_min (by omega) hmin]
      exact (axisCount_range _ _ _).1
    · rw [axisBound_of_min_lt (by omega) (by omega), axisBound_of_min_lt (by omega) (by omega)]
      exact axisCount_mono h _

/-! ## The obligations of 42_sticks_calibration -/

theorem exec_stickRow (ax : Axis) (p : PortIdx) (v : Byte) (s : State) :
    exec (stickRow ax p v) s = .next (s.modifyPort p fun po => po.stepAxis ax v) := by
  cases ax <;> rfl

/-- Settles O31: the row is one `Port.stepAxis`, whose arithmetic is `axisStep_spec`. -/
theorem stickRowsStepTheirAxis : Obligations.StickRowsStepTheirAxis := by
  intro ax p v s
  refine ⟨_, exec_stickRow ax p v s, ?_⟩
  rw [State.modifyPort_port_self]
  refine ⟨?_, fun b hb => ⟨Sticks.get_set_ne _ b ax _ hb, Cals.get_set_ne _ b ax _ hb⟩, rfl, rfl, rfl, onlyPort_modifyPort p s _⟩
  rw [Port.stepAxis_stick, Port.stepAxis_cal, Sticks.get_set_self, Cals.get_set_self]
  exact axisStep_spec v ((s.port p).cal.get ax)

/-- Settles O33: the count's clauses are the lemmas on its sign, its saturation and its monotonicity; the pair's clauses are read off
`axisStep_spec`, and idempotence is `axisStep_axisStep`. -/
theorem axisStepFacts : Obligations.AxisStepFacts := by
  refine ⟨fun raw c => ?_, fun _ _ c h => axisStep_count_mono h c, by decide⟩
  obtain ⟨hmax, hmin, -⟩ := axisStep_spec raw c
  have hwide := axisRel_widens (axisStep_spec raw c)
  simp only [axisStep_count]
  refine ⟨axisCount_range _ _ _, fun h => axisCount_center _ h _, fun h => axisCount_nonneg _ h.le _,
    fun h => ⟨axisCount_le_neg_one h _ _, axisCount_nonpos _ h.le _⟩, hwide, axisMax_eq_or _ _, axisMin_eq_or _ _,
    fun h => ?_, fun h => ?_, axisStep_axisStep _ _ _, axisCount_eq_max_iff _ _ _, fun h hle => axisCount_eq_min h hle _⟩
  · rw [hmax, maxAfter, if_pos h]
    exact le_max_right _ _
  · rw [hmin, minAfter, if_pos h]
    exact min_le_right _ _

/-- Settles O34: each bound moves on its own side of the centre only. -/
theorem atMostOneBoundMoves : Obligations.AtMostOneBoundMoves := by
  refine ⟨fun rnd c => ?_, fun _ raw c => ?_⟩
  · rw [axisStep, axisCount_center rnd (by decide), axisMax_of_le_center (by decide), axisMin_of_center_le (by decide)]
  · rcases le_total raw.toNat 128 with h | h
    · exact .inl (axisMax_of_le_center h c.max)
    · exact .inr (axisMin_of_center_le h c.min)

/-! ### The source's formula -/

/-- The rational a register holds is its count over 80 (R100): the count fits the register. -/
theorem stickValue_axisStep (rnd : Config.Rounding) (raw : Byte) (c : Cal) :
    stickValue (BitVec.ofInt 8 (axisStep rnd raw c).1) = ((axisStep rnd raw c).1 : ℚ) / 80 := by
  obtain ⟨hlo, hhi⟩ := axisCount_range rnd raw (axisBound raw c.max c.min)
  rw [stickValue, axisStep_count, toInt_ofInt_count _ hlo hhi]
  rfl

theorem cast_distAfter (raw cmax cmin : Nat) : (distAfter raw cmax cmin : ℚ) = |(boundAfter raw cmax cmin : ℚ) - 128| := by
  simp [distAfter]

/-- Dividing the displacement by `d / 80` and rounding down is the integer floor of R97. -/
theorem floor_div_stepSize (raw : Byte) {d : Int} (hd : 0 < d) :
    ⌊((raw.toNat : ℚ) - 128) / ((d : ℚ) / 80)⌋ = floorDiv (axisNumerator raw) d := by
  obtain ⟨hle, hlt⟩ := floorDiv_spec (axisNumerator raw) d hd
  have hq : (0 : ℚ) < d := by exact_mod_cast hd
  have hnum : ((raw.toNat : ℚ) - 128) / ((d : ℚ) / 80) = (axisNumerator raw : ℚ) / d := by
    rw [axisNumerator_eq]
    push_cast
    field_simp
  rw [hnum, Int.floor_eq_iff, le_div_iff₀ hq, div_lt_iff₀ hq]
  exact ⟨by exact_mod_cast hle, by exact_mod_cast hlt⟩

/-- A count in -80..80 is a value the source's clamp keeps (R99). -/
theorem clamp_count_div (k : Int) (hlo : -80 ≤ k) (hhi : k ≤ 80) : max (-1) (min 1 ((k : ℚ) * (1 / 80))) = k / 80 := by
  have hlo' : (-80 : ℚ) ≤ k := by exact_mod_cast hlo
  have hhi' : (k : ℚ) ≤ 80 := by exact_mod_cast hhi
  rw [min_eq_right (by linarith), max_eq_right (by linarith)]
  ring

/-- Settles O35: where the step size is not 0 the rational floor is the model's count, and the clamp keeps it. -/
theorem stickValueIsTheSourceFormula : Obligations.StickValueIsTheSourceFormula := by
  intro raw c stepSize hstep
  rw [← cast_distAfter] at hstep
  rw [stickValue_axisStep, axisStep_count, hstep]
  by_cases hd : distAfter raw.toNat c.max.toNat c.min.toNat = 0
  · simp [axisCount_zero _ _ _ _ hd, hd]
  · have hpos := lt_of_le_of_ne (distAfter_nonneg raw.toNat c.max.toNat c.min.toNat) (Ne.symm hd)
    obtain ⟨hlo, hhi⟩ := axisCount_range .floor raw (axisBound raw c.max c.min)
    rw [if_neg (by simpa using hd), floor_div_stepSize raw hpos, ← axisCount_floor raw c.max c.min hd,
      clamp_count_div _ hlo hhi]

end Sys2Proof.Machine

/-! # Triggers: the two trigger rows and the arithmetic of Trig (43_triggers)

Everything rests on the lattice form of Trig, `trigCount_eq`: its corners are the cases of a `max` and a `min`, and division by the
span, being monotone, passes through both. That the 8-bit register loses nothing of the count is `trigCount_spec`. -/

namespace Sys2Proof.Machine

/-! ## The count -/

/-- R109 for every value of the two inputs, a span of 0 included. -/
theorem trigCount_eq (offset span raw : Byte) :
    trigCount offset span raw = max 0 (min ((raw.toNat : ℤ) - offset.toNat) span.toNat) :=
  clamp_eq _ _ _ (Int.natCast_nonneg span.toNat)

/-- The count fits its register (R113). -/
theorem toNat_ofInt_trigCount (offset span raw : Byte) :
    ((BitVec.ofInt 8 (trigCount offset span raw)).toNat : ℤ) = trigCount offset span raw :=
  (trigCount_spec offset span raw).trans (trigCount_eq offset span raw).symm

/-- The deadzone (R112). -/
theorem trigCount_of_le_offset {offset raw : Byte} (h : raw.toNat ≤ offset.toNat) (span : Byte) :
    trigCount offset span raw = 0 := by
  rw [trigCount_eq]
  exact max_eq_left (min_le_of_left_le (by omega))

/-- Between the corners the clamp keeps the difference (R112). -/
theorem trigCount_of_between {offset span raw : Byte} (hlo : offset.toNat ≤ raw.toNat)
    (hhi : raw.toNat ≤ offset.toNat + span.toNat) : trigCount offset span raw = (raw.toNat : ℤ) - offset.toNat := by
  rw [trigCount_eq, min_eq_left (by omega), max_eq_right (by omega)]

/-- Full travel (R112). -/
theorem trigCount_of_full_le {offset span raw : Byte} (h : offset.toNat + span.toNat ≤ raw.toNat) :
    trigCount offset span raw = span.toNat := by
  rw [trigCount_eq, min_eq_right (by omega), max_eq_right (by omega)]

theorem trigCount_mono {r₁ r₂ : Byte} (h : r₁.toNat ≤ r₂.toNat) (offset span : Byte) :
    trigCount offset span r₁ ≤ trigCount offset span r₂ := by
  rw [trigCount_eq, trigCount_eq]
  exact max_le_max_left 0 (min_le_min_right _ (by omega))

/-! ## The obligations of 43_triggers -/

theorem exec_trigRow (tr : Trigger) (p : PortIdx) (v : Byte) (s : State) :
    exec (trigRow tr p v) s = .next (s.modifyPort p fun po => po.setTrigger s.trigOffset s.trigSpan tr v) := by
  cases tr <;> rfl

/-- Settles O32: the row is one `Port.setTrigger`, whose arithmetic is `trigCount_spec`. -/
theorem triggerRowsWriteTheirCount : Obligations.TriggerRowsWriteTheirCount := by
  intro tr p v s
  refine ⟨_, exec_trigRow tr p v s, ?_⟩
  rw [State.modifyPort_port_self]
  refine ⟨?_, fun b hb => Triggers.get_set_ne _ b tr _ hb, rfl, rfl, rfl, rfl, onlyPort_modifyPort p s _⟩
  rw [Port.setTrigger_trig, Triggers.get_set_self]
  exact trigCount_spec s.trigOffset s.trigSpan v

/-- Settles O37: the deadzone, full travel, the counts between them, and monotonicity. -/
theorem triggerCorners : Obligations.TriggerCorners := fun offset span =>
  ⟨fun _ h => trigCount_of_le_offset h span, fun _ h => trigCount_of_full_le h,
    fun _ hlo hhi => trigCount_of_between hlo hhi, fun _ _ h => trigCount_mono h offset span⟩

/-- The rational a trigger register holds is its count over the span (R109). -/
theorem trigValue_trigCount (offset span raw : Byte) :
    trigValue span (BitVec.ofInt 8 (trigCount offset span raw)) = (trigCount offset span raw : ℚ) / span.toNat := by
  rw [trigValue, ← Int.cast_natCast, toNat_ofInt_trigCount]

/-- Settles O36: dividing by the span passes through the clamp and takes its bounds 0 and `span` to 0 and 1 (R109). -/
theorem triggerValueIsTheSourceFormula : Obligations.TriggerValueIsTheSourceFormula := by
  intro offset span raw hspan
  have hne : (span.toNat : ℚ) ≠ 0 := by simpa [← BitVec.toNat_inj] using hspan
  have hnonneg : (0 : ℚ) ≤ span.toNat := Nat.cast_nonneg _
  rw [trigValue_trigCount, trigCount_eq]
  push_cast
  rw [← max_div_div_right hnonneg, ← min_div_div_right hnonneg, zero_div, div_self hne, min_comm]

end Sys2Proof.Machine

/-! # Session and query: START and STOP, the decode commands without a session, GET and ISACTIVE (44_session_and_query)

A command is settled by what `accept` lets through, and a query by the three answers of `queryWith`; GET and ISACTIVE differ only in
the data they read from the slot. That a repeated STOP changes nothing is that clearing a clear `alloc` does nothing
(`clearAlloc_of_off`). -/

namespace Sys2Proof.Machine

/-! ## Activity of a slot -/

theorem Port.active_eq_false_iff (po : Port) : po.active = false ↔ allZero po.raw := by
  rw [Port.active, Bool.not_eq_false', subIsZero_iff]

theorem Port.active_eq_true_iff (po : Port) : po.active = true ↔ ¬ allZero po.raw := by
  rw [← Port.active_eq_false_iff, Bool.not_eq_false]

/-- A slot at its start value has latched no active sub-frame (R114). -/
theorem Port.active_of_isStart {po : Port} (h : po.isStart) : po.active = false := by
  obtain ⟨-, -, -, hraw, -⟩ := h
  exact po.active_eq_false_iff.mpr hraw

/-! ## START and STOP -/

/-- Settles O14: every slot is `Port.init`, and START writes no other field but `alloc` and its answer. -/
theorem startInitialisesAllPorts : Obligations.StartInitialisesAllPorts := by
  intro u s hb
  refine ⟨_, exec_start_free u s hb, fun p => ?_, rfl⟩
  rw [State.respond_port, State.startPorts_port]
  exact ⟨Port.init_isStart, Port.active_of_isStart Port.init_isStart⟩

/-- STOP accepted (R115). -/
theorem exec_stop_free (u : BitVec 2) (s : State) (hb : s.busy = false) :
    exec (.stop u) s = .next { s with alloc := false, cmdRsp := some { status := .ok, data := [] } } :=
  congrArg Host.Outcome.next (accept_free s _ hb)

/-- Settles O15. -/
theorem stopClearsAlloc : Obligations.StopClearsAlloc := exec_stop_free

theorem clearAlloc_of_off {s : State} (ha : s.alloc = false) : { s with alloc := false } = s := by
  rw [← ha]

/-- STOP accepted outside a session (R116). -/
theorem exec_stop_off (u : BitVec 2) (s : State) (hb : s.busy = false) (ha : s.alloc = false) :
    exec (.stop u) s = .next { s with cmdRsp := some { status := .ok, data := [] } } := by
  have hclear := congrArg (fun r : State => r.respond .command .ok []) (clearAlloc_of_off ha)
  exact (exec_stop_free u s hb).trans (congrArg Host.Outcome.next hclear)

/-- Settles O16: a STOP leaves `alloc` clear and its answer standing, so the second is a STOP outside a session that writes the
same answer; reset leaves `alloc` clear too. -/
theorem stopTwiceIsStopOnce : Obligations.StopTwiceIsStopOnce := by
  refine ⟨exec_stop_off, fun u v s t hb h => ?_, exec_stop_off 0 State.reset rfl rfl⟩
  rw [exec_stop_free u s hb, Host.Outcome.next.injEq] at h
  subst h
  exact ⟨exec_stop_off v _ hb rfl, rfl, rfl⟩

/-! ## The decode commands without a session -/

/-- Settles O19: both raise NotInitialized in `needPorts`. -/
theorem decodeOutsideSessionIsRefused : Obligations.DecodeOutsideSessionIsRefused := fun u f p sf s hb ha =>
  ⟨exec_frame_off u f s hb ha, exec_subframe_off p sf s hb ha⟩

/-! ## GET and ISACTIVE -/

theorem exec_get (q1 : Byte) (s : State) : exec (.get q1) s = .next (s.queryWith q1 25 recordOf) := rfl

theorem exec_isactive (q1 : Byte) (s : State) :
    exec (.isactive q1) s = .next (s.queryWith q1 1 fun po => [bitAt po.active 0]) := rfl

/-- Settles O39: the index names the slot of port `p`. -/
theorem getAnswersTheRecord : Obligations.GetAnswersTheRecord := by
  intro q1 p s ha hp
  rw [exec_get, queryWith_ok s q1 _ _ p ha hp]
  rfl

/-- ISACTIVE of a port in a session (R118), before its bit is read off the raw latch. -/
theorem exec_isactive_ok (q1 : Byte) (p : PortIdx) (s : State) (ha : s.alloc = true) (hp : q1.toInt = (p.toNat : ℤ)) :
    exec (.isactive q1) s = .next { s with qryRsp := some { status := .ok, data := [bitAt (s.port p).active 0] } } := by
  rw [exec_isactive, queryWith_ok s q1 _ _ p ha hp]
  rfl

/-- Settles O40: `active` says whether the slot's last sub-frame was all zero (R21). -/
theorem isactiveAnswersActivity : Obligations.IsactiveAnswersActivity := by
  intro q1 p s ha hp
  rw [exec_isactive_ok q1 p s ha hp]
  constructor
  · intro hraw
    rw [(Port.active_eq_true_iff _).mpr hraw]
    rfl
  · intro hraw
    rw [(Port.active_eq_false_iff _).mpr hraw]
    rfl

/-- Settles O41: the two ways `queryWith` raises, the session before the index (R130). -/
theorem failingQueriesReturnNoData : Obligations.FailingQueriesReturnNoData := by
  constructor
  · intro q1 s ha
    rw [exec_get, exec_isactive, queryWith_notInitialized s q1 _ _ ha, queryWith_notInitialized s q1 _ _ ha]
    exact ⟨rfl, rfl⟩
  · intro q1 s ha hout
    rw [exec_get, exec_isactive, queryWith_outOfRange s q1 _ _ ha hout, queryWith_outOfRange s q1 _ _ ha hout]
    exact ⟨rfl, rfl⟩

end Sys2Proof.Machine

/-! # Exceptions: which agent moves, and the four status rows (60_exceptions)

`mover` is a choice between two readiness bits; what each bit says of the inputs is said once, and every clause about `mover` is a
split on the two bits. A status row is one `raiseStatus` without data bytes, so what it issues is read off the raised status. -/

namespace Sys2Proof.Machine

/-! ## What the readiness bits say -/

theorem decoderReady_eq_true_iff (s : State) : s.decoderReady = true ↔ s.busy = true ∨ s.cmdIn ≠ [] := by
  rw [State.decoderReady, Bool.or_eq_true, Bool.not_eq_true', List.isEmpty_eq_false_iff]

theorem decoderReady_eq_false_iff (s : State) : s.decoderReady = false ↔ s.busy = false ∧ s.cmdIn = [] := by
  rw [State.decoderReady, Bool.or_eq_false_iff, Bool.not_eq_false', List.isEmpty_iff]

theorem consumerReady_eq_true_iff (s : State) : s.consumerReady = true ↔ s.qryIn ≠ [] := by
  rw [State.consumerReady, Bool.not_eq_true', List.isEmpty_eq_false_iff]

theorem consumerReady_eq_false_iff (s : State) : s.consumerReady = false ↔ s.qryIn = [] := by
  rw [State.consumerReady, Bool.not_eq_false', List.isEmpty_iff]

/-! ## The mover from the readiness bits -/

theorem mover_eq_none_iff (s : State) : s.mover = none ↔ s.decoderReady = false ∧ s.consumerReady = false := by
  cases hd : s.decoderReady <;> cases hc : s.consumerReady <;> simp [State.mover, hd, hc]

/-- The agent that moves can move: the schedule only chooses where both bits are set. -/
theorem ready_of_mover {s : State} {a : Config.Agent} (hm : s.mover = some a) :
    (a = .decoder → s.decoderReady = true) ∧ (a = .consumer → s.consumerReady = true) := by
  cases hd : s.decoderReady <;> cases hc : s.consumerReady <;> simp [State.mover, hd, hc] at hm
  case false.true => simp [← hm]
  case true.false => simp [← hm]
  case true.true => simp

theorem mover_of_both_ready {s : State} (hd : s.decoderReady = true) (hc : s.consumerReady = true) : s.mover = some s.favoured := by
  rw [State.mover, hd, hc]

/-- Settles O7: the readiness bits do not read the schedule, and where both are set `favoured` is its head. -/
theorem everyInterleavingIsAStep : Obligations.EveryInterleavingIsAStep := by
  refine ⟨fun s => ?_, fun s hm => ?_, fun s hm => ?_, fun s a ts hq hd => ?_⟩
  · rw [mover_eq_none_iff, decoderReady_eq_false_iff, consumerReady_eq_false_iff, and_assoc]
  · exact (consumerReady_eq_true_iff s).mp ((ready_of_mover hm).2 rfl)
  · exact (decoderReady_eq_true_iff s).mp ((ready_of_mover hm).1 rfl)
  · exact mover_of_both_ready ((decoderReady_eq_true_iff _).mpr hd) ((consumerReady_eq_true_iff _).mpr hq)

/-! ## The status rows -/

theorem exec_statusOk (ch : Channel) (s : State) : exec (.statusOk ch) s = .next (s.raiseStatus ch .ok 0) := rfl

theorem exec_statusNotInitialized (ch : Channel) (s : State) :
    exec (.statusNotInitialized ch) s = .next (s.raiseStatus ch .notInitialized 0) := rfl

theorem exec_statusOutOfRange (ch : Channel) (s : State) :
    exec (.statusOutOfRange ch) s = .next (s.raiseStatus ch .outOfRange 0) := rfl

theorem exec_statusBadCommand (ch : Channel) (s : State) :
    exec (.statusBadCommand ch) s = .next (s.raiseStatus ch .badCommand 0) := rfl

/-- A row that raises `c` without data issues the one byte of `c` on its channel (R59, R124). -/
theorem issues_statusCode {row : Channel → Instr} {c : Status}
    (hrow : ∀ ch s, exec (row ch) s = .next (s.raiseStatus ch c 0)) : issues row (statusCode c) := by
  intro s
  constructor
  · refine ⟨{ status := c, data := [] }, rfl, ?_⟩
    rw [hrow, raiseStatus_command, List.replicate_zero]
  · refine ⟨{ status := c, data := [] }, rfl, ?_⟩
    rw [hrow, raiseStatus_query, List.replicate_zero]

/-- Settles O46: each row raises its own status, whose code R124 gives. -/
theorem statusRowsIssueTheirCode : Obligations.StatusRowsIssueTheirCode :=
  ⟨issues_statusCode exec_statusOk, issues_statusCode exec_statusNotInitialized, issues_statusCode exec_statusOutOfRange,
    issues_statusCode exec_statusBadCommand⟩

end Sys2Proof.Machine

/-! # Reset and hazards: reset, waiting, short packets, and the end of a run (70_reset_and_hazards)

`step_of_reset`, `step_of_wait` and `step_of_undecodable` are the kinds of step that the parts above left out; the first two settle
reset and waiting, and with the other rules of a step the third leaves short packets only. The end of a run rests on the decoder's
view of a state: a step without reset keeps it or is a decoder's move (`step_view_or_move`), the move's view is a function of the
view before it (`decoderMoves_view`), and no move is left at the end (`not_decoderMoves`). So two runs make the same moves. -/

namespace Sys2Proof.Machine

/-! ## Reset, waiting, and a packet that is not whole -/

theorem step_of_reset (s : State) (hr : s.resetAsserted = true) : step s = .next s.hardReset := if_pos hr

/-- With no agent to move, a step waits (R140; log 3). -/
theorem step_of_wait (s : State) (hr : s.resetAsserted = false) (hm : s.mover = none) : step s = .next s.beginStep := by
  have hfetch : s.fetch = none := by simp [State.fetch, hm]
  simp [step, hr, hfetch]

/-- A step of the decoder with the channel free is refused where no command can be read (log 13). -/
theorem step_of_undecodable (s : State) (e : DecodeError) (hr : s.resetAsserted = false) (hm : s.mover = some .decoder)
    (hb : s.busy = false) (hd : decodeCommand s.cmdIn = .error e) : step s = .refused (.undecodable e) := by
  have hfetch : s.fetch = some (.command, s.cmdIn) := by simp [State.fetch, hm, hb]
  simp [step, hr, hfetch, decode, hd]

/-- Settles O13: every slot of the reset column is `Port.init`. -/
theorem resetAssertedGivesResetState : Obligations.ResetAssertedGivesResetState := by
  intro s hr
  refine ⟨_, step_of_reset s hr, rfl, rfl, rfl, fun j => by simp, fun p => ?_, rfl, rfl, rfl, rfl⟩
  rw [State.hardReset_port]
  exact Port.init_isStart

/-- Settles O8: neither agent is ready. -/
theorem nothingToDoWaits : Obligations.NothingToDoWaits := by
  intro s hr hb hcmd hqry
  have hm : s.mover = none :=
    (mover_eq_none_iff s).mpr ⟨(decoderReady_eq_false_iff s).mpr ⟨hb, hcmd⟩, (consumerReady_eq_false_iff s).mpr hqry⟩
  exact ⟨_, step_of_wait s hr hm, ⟨rfl, rfl, rfl, rfl, rfl⟩, hcmd, hqry, rfl, rfl⟩

/-! ## Which command packets cannot be read -/

/-- A byte whose reserved bits are clear is the header of its own two fields (R54). -/
theorem header_of_legal {h : Byte} (h2 : h.getLsbD 2 = false) (hres : h.extractLsb' 3 3 = 0#3) :
    header (h.extractLsb' 6 2) (h.extractLsb' 0 3) = h := by
  refine header_of_bits _ (bitsClear_iff.mpr fun k hlo hhi => ?_) (by simp) (by simp) (by simpa using h2)
  rcases Nat.eq_or_lt_of_le hlo with rfl | hlt
  · exact h2
  · have hbit := congrArg (·.getLsbD (k - 3)) hres
    have hfield : k - 3 < 3 := by omega
    have hsum : 3 + (k - 3) = k := by omega
    simpa [hfield, hsum] using hbit

theorem header_and_unreserved (hi : BitVec 2) (op : BitVec 3) : header hi op &&& 0x3F#8 = op.setWidth 8 := by
  revert hi op
  decide

/-- An operation code whose bit 2 is clear is one of the four legal ones (R55). -/
theorem op_cases {op : BitVec 3} (hop : op.getLsbD 2 = false) : op = 0 ∨ op = 1 ∨ op = 2 ∨ op = 3 := by
  revert op
  decide

/-- A command that takes `n` bytes after its header is read wherever they stand there, so where it is not read fewer do (R64). -/
theorem shortCommand_of_takeBytes {n : Nat} {h : Byte} {rest : List Byte} {e : DecodeError} {row : Vector Byte n → Instr}
    (hsome : ∀ v rest', takeBytes n rest = some (v, rest') → decodeCommand (h :: rest) = .ok (row v, rest'))
    (hnone : takeBytes n rest = none → decodeCommand (h :: rest) = .error (.shortCommand (1 + n) (1 + rest.length)))
    (hd : decodeCommand (h :: rest) = .error e) :
    e = .shortCommand (1 + n) (h :: rest).length ∧ (h :: rest).length < 1 + n := by
  rw [List.length_cons, Nat.add_comm rest.length]
  rcases ht : takeBytes n rest with _ | ⟨v, rest'⟩
  · cases (hnone ht).symm.trans hd
    exact ⟨rfl, Nat.add_lt_add_left (takeBytes_none ht) 1⟩
  · cases (hsome v rest' ht).symm.trans hd

theorem decodeCommand_frame_error {u : BitVec 2} {rest : List Byte} {e : DecodeError}
    (hd : decodeCommand (header u 2#3 :: rest) = .error e) :
    e = .shortCommand 38 (header u 2#3 :: rest).length ∧ (header u 2#3 :: rest).length < 38 :=
  shortCommand_of_takeBytes (n := Config.frameLen) (row := .frame u) (fun v rest' ht => by simp [decodeCommand, ht])
    (fun ht => by simp [decodeCommand, ht]) hd

theorem decodeCommand_subframe_error {p : BitVec 2} {rest : List Byte} {e : DecodeError}
    (hd : decodeCommand (header p 3#3 :: rest) = .error e) :
    e = .shortCommand 9 (header p 3#3 :: rest).length ∧ (header p 3#3 :: rest).length < 9 :=
  shortCommand_of_takeBytes (n := Config.subLen) (row := .subframe p) (fun v rest' ht => by simp [decodeCommand, ht])
    (fun ht => by simp [decodeCommand, ht]) hd

/-- Presented command bytes that cannot be read are a FRAME or a SUBFRAME that is not whole: an illegal header is read alone, and
START and STOP have no more than their header (R63, R64). -/
theorem decodeCommand_error {h : Byte} {rest : List Byte} {e : DecodeError} (hd : decodeCommand (h :: rest) = .error e) :
    ∃ need, e = .shortCommand need (h :: rest).length ∧ (h :: rest).length < need ∧
      ((need = 38 ∧ h &&& 0x3F#8 = 0x02#8) ∨ (need = 9 ∧ h &&& 0x3F#8 = 0x03#8)) := by
  have hlegal : ¬ (h.getLsbD 2 = true ∨ h.extractLsb' 3 3 ≠ 0#3) := by
    intro hill
    obtain ⟨i, hok, -⟩ := decodeCommand_illegal h rest hill
    cases hok.symm.trans hd
  rw [not_or, Bool.not_eq_true, not_not] at hlegal
  obtain ⟨h2, hres⟩ := hlegal
  obtain ⟨hi, op, hop, rfl⟩ : ∃ hi op, op.getLsbD 2 = false ∧ header hi op = h :=
    ⟨_, _, by simpa using h2, header_of_legal h2 hres⟩
  obtain rfl | rfl | rfl | rfl : op = 0 ∨ op = 1 ∨ op = 2 ∨ op = 3 := op_cases hop
  · cases (decodeCommand_encode (.start hi) rest rfl rfl).symm.trans hd
  · cases (decodeCommand_encode (.stop hi) rest rfl rfl).symm.trans hd
  · obtain ⟨he, hlen⟩ := decodeCommand_frame_error hd
    exact ⟨38, he, hlen, .inl ⟨rfl, header_and_unreserved hi 2⟩⟩
  · obtain ⟨he, hlen⟩ := decodeCommand_subframe_error hd
    exact ⟨9, he, hlen, .inr ⟨rfl, header_and_unreserved hi 3⟩⟩

/-- Settles O9: every kind of step has a next state but that of a decoder which cannot read its command. -/
theorem onlyShortPacketsStop : Obligations.OnlyShortPacketsStop := by
  intro s
  rcases hr : s.resetAsserted with _ | _
  case true => exact .inl ⟨_, step_of_reset s hr⟩
  rcases hm : s.mover with _ | (_ | _)
  case none => exact .inl ⟨_, step_of_wait s hr hm⟩
  case some.consumer =>
    left
    obtain ⟨q, qs, hq⟩ := List.exists_cons_of_ne_nil ((consumerReady_eq_true_iff s).mp ((ready_of_mover hm).2 rfl))
    rw [step_of_query s q qs hr hm hq]
    exact exec_next _ _
  case some.decoder =>
    rcases hb : s.busy with _ | _
    case true => exact .inl ⟨_, step_of_dstep s hr hm hb⟩
    rcases hd : decodeCommand s.cmdIn with e | ⟨i, rest⟩
    case ok =>
      left
      rw [step_of_command s i rest hr hm hb hd]
      exact exec_next _ _
    case error =>
      right
      have hready := (decoderReady_eq_true_iff s).mp ((ready_of_mover hm).1 rfl)
      obtain ⟨h, rest, hin⟩ := List.exists_cons_of_ne_nil (hready.resolve_left (by simp [hb]))
      obtain ⟨need, rfl, hlen, hop⟩ := decodeCommand_error (hin ▸ hd)
      exact ⟨need, _, h, rest, step_of_undecodable s _ hr hm hb hd, rfl, rfl, rfl, hin, congrArg List.length hin, hlen, hop⟩

/-! ## The decoder's view -/

theorem sameDecoderView.refl (s : State) : sameDecoderView s s := ⟨⟨rfl, rfl, rfl, rfl, rfl⟩, rfl, rfl, rfl⟩

theorem sameDecoderView.symm {s t : State} (h : sameDecoderView s t) : sameDecoderView t s := by
  obtain ⟨⟨halloc, hbusy, hpidx, hfbuf, hports⟩, hoffset, hspan, hcmd⟩ := h
  exact ⟨⟨halloc.symm, hbusy.symm, hpidx.symm, hfbuf.symm, hports.symm⟩, hoffset.symm, hspan.symm, hcmd.symm⟩

theorem sameDecoderView.trans {s t u : State} (h : sameDecoderView s t) (h' : sameDecoderView t u) : sameDecoderView s u := by
  obtain ⟨⟨halloc, hbusy, hpidx, hfbuf, hports⟩, hoffset, hspan, hcmd⟩ := h
  obtain ⟨⟨halloc', hbusy', hpidx', hfbuf', hports'⟩, hoffset', hspan', hcmd'⟩ := h'
  exact ⟨⟨halloc'.trans halloc, hbusy'.trans hbusy, hpidx'.trans hpidx, hfbuf'.trans hfbuf, hports'.trans hports⟩,
    hoffset'.trans hoffset, hspan'.trans hspan, hcmd'.trans hcmd⟩

/-- What the operation makes of the decoder's view depends on that view only. -/
def respectsView (op : State → State) : Prop := ∀ s t : State, sameDecoderView s t → sameDecoderView (op s) (op t)

theorem respectsView_respond {op : State → State} (h : respectsView op) (ch : Channel) (st : Status) (data : List Byte) :
    respectsView fun s => (op s).respond ch st data := by
  intro s t hv
  cases ch <;> exact h s t hv

theorem respectsView_raiseStatus (ch : Channel) (c : Status) (n : Nat) : respectsView fun s => s.raiseStatus ch c n :=
  respectsView_respond (op := id) (fun _ _ hv => hv) ch c _

theorem respectsView_accept {op : State → State} (h : respectsView op) : respectsView fun s => s.accept op := by
  intro s t hv
  have ⟨⟨_, hbusy, _⟩, _⟩ := hv
  dsimp only
  cases hb : s.busy with
  | true => rwa [accept_busy s op hb, accept_busy t op (hbusy.trans hb)]
  | false =>
    rw [accept_free s op hb, accept_free t op (hbusy.trans hb)]
    exact h s t hv

theorem respectsView_needPorts {op : State → State} (h : respectsView op) : respectsView fun s => s.needPorts op := by
  intro s t hv
  have ⟨⟨halloc, _⟩, _⟩ := hv
  dsimp only
  cases ha : s.alloc with
  | true =>
    rw [needPorts_on s op ha, needPorts_on t op (halloc.trans ha)]
    exact h s t hv
  | false =>
    rw [needPorts_off s op ha, needPorts_off t op (halloc.trans ha)]
    exact respectsView_raiseStatus _ _ _ s t hv

theorem respectsView_startPorts : respectsView State.startPorts := by
  intro s t ⟨⟨_, hbusy, hpidx, hfbuf, _⟩, hin⟩
  exact ⟨⟨rfl, hbusy, hpidx, hfbuf, rfl⟩, hin⟩

theorem respectsView_clearAlloc : respectsView fun s => { s with alloc := false } := by
  intro s t ⟨⟨_, hspec⟩, hin⟩
  exact ⟨⟨rfl, hspec⟩, hin⟩

theorem respectsView_latchFrame (f : Frame) : respectsView fun s => s.latchFrame f := by
  intro s t ⟨⟨halloc, _, _, _, hports⟩, hin⟩
  exact ⟨⟨halloc, rfl, rfl, rfl, hports⟩, hin⟩

theorem respectsView_decodePort (p : PortIdx) (sf : SubFrame) : respectsView fun s => s.decodePort p sf := by
  intro s t ⟨⟨halloc, hbusy, hpidx, hfbuf, hports⟩, hoffset, hspan, hcmd⟩
  refine ⟨⟨halloc, hbusy, hpidx, hfbuf, ?_⟩, hoffset, hspan, hcmd⟩
  simp only [State.decodePort_ports, State.port_of_ports, hports, hoffset, hspan]

theorem respectsView_advance (p : PortIdx) : respectsView fun s => s.advance p := by
  intro s t ⟨⟨halloc, hbusy, _, hfbuf, hports⟩, hin⟩
  dsimp only
  by_cases hp : p = 3
  · rw [advance_last hp, advance_last hp]
    exact ⟨⟨halloc, rfl, rfl, hfbuf, hports⟩, hin⟩
  · rw [advance_next hp, advance_next hp]
    exact ⟨⟨halloc, hbusy, rfl, hfbuf, hports⟩, hin⟩

theorem respectsView_beginStep : respectsView State.beginStep := fun _ _ hv => hv

theorem respectsView_setCmdIn (rest : List Byte) : respectsView fun s => { s with cmdIn := rest } := by
  intro s t ⟨hspec, hoffset, hspan, _⟩
  exact ⟨hspec, hoffset, hspan, rfl⟩

theorem respectsView_dstepState : respectsView dstepState := by
  intro s t hv
  have ⟨⟨_, _, hpidx, hfbuf, _⟩, _⟩ := hv
  unfold dstepState
  rw [hpidx, hfbuf]
  exact respectsView_advance _ _ _ (respectsView_decodePort _ _ _ _ (respectsView_beginStep s t hv))

theorem respectsView_badCommand : respectsView State.badCommand := respectsView_accept (respectsView_raiseStatus _ _ _)

/-- A command is an operation of the decoder's view (R40). -/
theorem exec_command_respectsView (i : Instr) (hp : i.place = .command) :
    ∃ op, respectsView op ∧ ∀ s, exec i s = .next (op s) := by
  cases i <;> simp only [Instr.place, reduceCtorEq] at hp
  case start u => exact ⟨_, respectsView_accept (respectsView_respond respectsView_startPorts _ _ _), fun _ => rfl⟩
  case stop u => exact ⟨_, respectsView_accept (respectsView_respond respectsView_clearAlloc _ _ _), fun _ => rfl⟩
  case frame u f => exact ⟨_, respectsView_accept (respectsView_needPorts (respectsView_latchFrame f)), fun _ => rfl⟩
  case subframe p sf =>
    exact ⟨_, respectsView_accept (respectsView_needPorts (respectsView_respond (respectsView_decodePort p sf) _ _ _)),
      fun _ => rfl⟩
  all_goals exact ⟨_, respectsView_badCommand, fun _ => rfl⟩

/-! ## The decoder's moves -/

/-- The decoder's step from `s` leaves `t`: the decode step of a pending frame, else the acceptance of a command (R67, R69). -/
def decoderMoves (s t : State) : Prop :=
  (s.busy = true ∧ t = dstepState s) ∨
  (s.busy = false ∧ ∃ i rest, decodeCommand s.cmdIn = .ok (i, rest) ∧ exec i { s.beginStep with cmdIn := rest } = .next t)

/-- A step without reset keeps the decoder's view, or it is the decoder's move; either way it spends a turn of the schedule. -/
theorem step_view_or_move {s t : State} (hs : s.noReset) (h : step s = .next t) :
    t.noReset ∧ (sameDecoderView s t ∨ decoderMoves s t) := by
  have hr := resetAsserted_of_noReset hs
  rcases step_cases s t h with ⟨hr', -⟩ | ⟨-, -, rfl⟩ | ⟨-, hm, -⟩ | ⟨-, -, hb, rfl⟩ | ⟨-, -, hb, i, rest, hd, he⟩
  case inl => exact absurd (hr.symm.trans hr') (by decide)
  case inr.inl => exact ⟨noReset_of_tail hs rfl, .inl (.refl s)⟩
  case inr.inr.inl =>
    refine ⟨noReset_of_tail hs ?_, .inl (queriesWriteNothing s t hr hm h).1⟩
    rw [step_consumer s t hm hr h]
    rfl
  case inr.inr.inr.inl => exact ⟨noReset_of_tail hs (dstepState_turns s), .inr (.inl ⟨hb, rfl⟩)⟩
  case inr.inr.inr.inr =>
    refine ⟨noReset_of_tail hs ?_, .inr (.inr ⟨hb, i, rest, hd, he⟩)⟩
    rcases exec_command_cases i { s.beginStep with cmdIn := rest } t (place_of_decodeCommand _ _ _ hd) hb he with
        ⟨u, -, rfl⟩ | ⟨u, -, rfl⟩ | ⟨u, f, -, -, rfl⟩ | ⟨p, sf, -, -, rfl⟩ | ⟨⟨c, rfl⟩, -⟩
    all_goals rfl

/-- The view after a move is a function of the view before it. -/
theorem decoderMoves_view {s s' t t' : State} (hv : sameDecoderView s s') (h : decoderMoves s t) (h' : decoderMoves s' t') :
    sameDecoderView t t' := by
  have ⟨⟨_, hbusy, _⟩, _, _, hcmd⟩ := hv
  rcases h with ⟨hb, rfl⟩ | ⟨hb, i, rest, hd, he⟩ <;> rcases h' with ⟨hb', rfl⟩ | ⟨hb', i', rest', hd', he'⟩
  case inl.inl => exact respectsView_dstepState s s' hv
  case inr.inr =>
    rw [hcmd, hd] at hd'
    cases hd'
    obtain ⟨op, hop, hexec⟩ := exec_command_respectsView i (place_of_decodeCommand _ _ _ hd)
    rw [hexec] at he he'
    cases he
    cases he'
    exact hop _ _ (respectsView_setCmdIn rest _ _ (respectsView_beginStep s s' hv))
  all_goals exact absurd (hb'.symm.trans (hbusy.trans hb)) (by decide)

/-- The decoder has nothing left to do: no frame is pending and no command is presented. -/
def State.decoderDone (s : State) : Prop := s.busy = false ∧ s.cmdIn = []

theorem decoderDone_of_quiescent {s : State} (h : s.quiescent) : s.decoderDone := by
  obtain ⟨hcmd, -, hb⟩ := h
  exact ⟨hb, hcmd⟩

theorem sameDecoderView.decoderDone {s t : State} (hv : sameDecoderView s t) (h : s.decoderDone) : t.decoderDone := by
  obtain ⟨⟨_, hbusy, _⟩, _, _, hcmd⟩ := hv
  exact ⟨hbusy.trans h.1, hcmd.trans h.2⟩

theorem not_decoderMoves {s t : State} (h : s.decoderDone) : ¬ decoderMoves s t := by
  obtain ⟨hb, hcmd⟩ := h
  rintro (⟨hb', -⟩ | ⟨-, i, rest, hd, -⟩)
  · exact absurd (hb.symm.trans hb') (by decide)
  · rw [hcmd] at hd
    cases hd

/-! ## Two runs -/

/-- From where the decoder has no move left, a run without reset keeps the view. -/
theorem run_view_of_decoderDone {s t : State} (n : Nat) (hdone : s.decoderDone) (hs : s.noReset)
    (hrun : Host.Core.run Sys2Proof.core n s = .next t) : sameDecoderView s t := by
  induction n generalizing s with
  | zero =>
    cases hrun
    exact .refl _
  | succ n ih =>
    obtain ⟨u, hstep, hrest⟩ := run_inv n s t hrun
    obtain ⟨hu, hview | hmove⟩ := step_view_or_move hs hstep
    · exact hview.trans (ih (hview.decoderDone hdone) hu hrest)
    · exact absurd hmove (not_decoderMoves hdone)

/-- A move that one state makes is made by every run to its end from a state of the same view, after which the run goes on. -/
theorem run_catches_up {s u s' t' : State} (n : Nat) (hmove : decoderMoves s u) (hv : sameDecoderView s s') (hs' : s'.noReset)
    (hrun : Host.Core.run Sys2Proof.core n s' = .next t') (hq : t'.quiescent) :
    ∃ k u', sameDecoderView u u' ∧ u'.noReset ∧ Host.Core.run Sys2Proof.core k u' = .next t' := by
  induction n generalizing s' with
  | zero =>
    cases hrun
    exact absurd hmove (not_decoderMoves (hv.symm.decoderDone (decoderDone_of_quiescent hq)))
  | succ n ih =>
    obtain ⟨v, hstep, hrest⟩ := run_inv n s' t' hrun
    obtain ⟨hnv, hview | hmove'⟩ := step_view_or_move hs' hstep
    · exact ih (hv.trans hview) hnv hrest
    · exact ⟨n, v, decoderMoves_view hv hmove hmove', hnv, hrest⟩

/-- Settles O55, by induction on the first run: the second catches up with each of its moves, and where it ends none is left. -/
theorem finalStateIgnoresQueriesAndOrder : Obligations.FinalStateIgnoresQueriesAndOrder := by
  intro s s' t t' m n hv hs hs' hrun hrun' hq hq'
  induction m generalizing s s' n with
  | zero =>
    cases hrun
    exact (hv.trans (run_view_of_decoderDone n (hv.decoderDone (decoderDone_of_quiescent hq)) hs' hrun')).1
  | succ m ih =>
    obtain ⟨u, hstep, hrest⟩ := run_inv m s t hrun
    obtain ⟨hu, hview | hmove⟩ := step_view_or_move hs hstep
    · exact ih u s' n (hview.symm.trans hv) hu hs' hrest hrun'
    · obtain ⟨k, u', hvu, hu', hrun''⟩ := run_catches_up n hmove hv hs' hrun' hq'
      exact ih u u' k hvu hu hu' hrest hrun''

end Sys2Proof.Machine
